-- ==== Sys2Proof/Word.lean ====
section
/-! DEFINITION. The word types of the BTE (00_scope.md R13): bytes of 8 bits, register words of 32 bits,
CRC-16 values of 16 bits, and byte sequences (R14). All arithmetic on them is unsigned. -/

namespace Sys2Proof

/-- A byte, 0..255 (R13). -/
abbrev Byte := BitVec 8

/-- A register word (R13). -/
abbrev Word := BitVec 32

/-- A CRC-16 value (41_checksum.md R100). -/
abbrev Half := BitVec 16

/-- A byte sequence `X[0..n-1]` (R14). -/
abbrev Bytes := List Byte

end Sys2Proof
end

