-- ==== Sys2Proof/Syntax.lean ====
section
/-! DEFINITION. The commands of the BTE: one constructor per row of spec/opcode_table.json (30_encoding.md R78), with
the command fields it uses as operands, and the field record of a command word (R77). -/

namespace Sys2Proof

/-- `DeviceVariant`, encoded as one bit: 0 = A, 1 = CS (00_scope.md R20). -/
inductive Variant where
  | a
  | cs
  deriving DecidableEq, Repr

/-- The commands (R78). `adv` is the ADV field, `var` the VAR field, `key` the KEY field (R77). -/
inductive Instr where
  | nop
  | ldtab
  | decblk (adv : Bool)
  | encblk (adv : Bool)
  | decimg
  | encimg (key : Variant)
  | getenc (var key : Variant)
  | crc32v
  | keychk
  | serdec
  | serenc
  deriving DecidableEq, Repr

/-- The fields of a command word (R77): OP in bits 7:0, ADV in bit 8, VAR in bit 9, KEY in bit 10, RSV in bits 31:11. -/
structure CmdFields where
  op  : BitVec 8
  adv : Bool
  var : Bool
  key : Bool
  rsv : BitVec 21
  deriving DecidableEq, Repr

/-- The bit that encodes a variant (R20). -/
def Variant.bit : Variant → Bool
  | .a => false
  | .cs => true

/-- The variant that a bit encodes (R20). -/
def Variant.ofBit : Bool → Variant
  | false => .a
  | true => .cs

/-- The fields of a command: its opcode, its operands in the fields it uses, zero elsewhere (R78, R79). -/
def Instr.fields : Instr → CmdFields
  | .nop        => ⟨0x00#8, false, false, false, 0#21⟩
  | .ldtab      => ⟨0x01#8, false, false, false, 0#21⟩
  | .decblk adv => ⟨0x02#8, adv, false, false, 0#21⟩
  | .encblk adv => ⟨0x03#8, adv, false, false, 0#21⟩
  | .decimg     => ⟨0x04#8, false, false, false, 0#21⟩
  | .encimg k   => ⟨0x05#8, false, false, k.bit, 0#21⟩
  | .getenc v k => ⟨0x06#8, false, v.bit, k.bit, 0#21⟩
  | .crc32v     => ⟨0x07#8, false, false, false, 0#21⟩
  | .keychk     => ⟨0x08#8, false, false, false, 0#21⟩
  | .serdec     => ⟨0x09#8, false, false, false, 0#21⟩
  | .serenc     => ⟨0x0A#8, false, false, false, 0#21⟩

end Sys2Proof
end

