-- ==== Sys2Proof/WellFormed.lean ====
section
/-! DEFINITION. Which command fields are legal: the strict field use of 30_encoding.md R79 and R80, one named check per
way a word can be illegal. Operands of `Instr` have types that hold legal values only, so every `Instr` passes. -/

namespace Sys2Proof

namespace CmdFields

/-- OP is one of 0x00..0x0A (R78; 0x0B..0xFF are reserved). -/
def opLegal (f : CmdFields) : Bool := f.op.toNat ≤ 0x0A

/-- RSV is 0 (R77). -/
def rsvLegal (f : CmdFields) : Bool := f.rsv == 0#21

/-- ADV is 0 unless the opcode is DECBLK or ENCBLK (R78, R79). -/
def advLegal (f : CmdFields) : Bool := !f.adv || f.op == 0x02#8 || f.op == 0x03#8

/-- VAR is 0 unless the opcode is GETENC (R78, R79). -/
def varLegal (f : CmdFields) : Bool := !f.var || f.op == 0x06#8

/-- KEY is 0 unless the opcode is ENCIMG or GETENC (R78, R79). -/
def keyLegal (f : CmdFields) : Bool := !f.key || f.op == 0x05#8 || f.op == 0x06#8

/-- All checks of R79 and R80. -/
def wellFormed (f : CmdFields) : Bool :=
  f.opLegal && f.rsvLegal && f.advLegal && f.varLegal && f.keyLegal

end CmdFields

/-- A command is well formed when its fields are. -/
def Instr.wellFormed (i : Instr) : Bool := i.fields.wellFormed

end Sys2Proof
end

