-- ==== Sys2Proof/Decode.lean ====
section
/-! DEFINITION. Decoding a command word by match and mask (30_encoding.md R79), rejecting every other word by name (R80),
and the encoder, which packs the fields of R77. -/

namespace Sys2Proof

/-- The fields of a command word (R77). -/
def fieldsOf (w : Word) : CmdFields where
  op  := w.extractLsb' 0 8
  adv := w.getLsbD 8
  var := w.getLsbD 9
  key := w.getLsbD 10
  rsv := w.extractLsb' 11 21

/-- One row of R79: a word is this command exactly when `word &&& mask = pattern`. -/
structure OpcodeRow where
  pattern : Word
  mask    : Word
  command : CmdFields → Instr

/-- The rows of R79, in its order. -/
def opcodeRows : List OpcodeRow :=
  [ ⟨0x00000000#32, 0xFFFFFFFF#32, fun _ => .nop⟩,
    ⟨0x00000001#32, 0xFFFFFFFF#32, fun _ => .ldtab⟩,
    ⟨0x00000002#32, 0xFFFFFEFF#32, fun f => .decblk f.adv⟩,
    ⟨0x00000003#32, 0xFFFFFEFF#32, fun f => .encblk f.adv⟩,
    ⟨0x00000004#32, 0xFFFFFFFF#32, fun _ => .decimg⟩,
    ⟨0x00000005#32, 0xFFFFFBFF#32, fun f => .encimg (.ofBit f.key)⟩,
    ⟨0x00000006#32, 0xFFFFF9FF#32, fun f => .getenc (.ofBit f.var) (.ofBit f.key)⟩,
    ⟨0x00000007#32, 0xFFFFFFFF#32, fun _ => .crc32v⟩,
    ⟨0x00000008#32, 0xFFFFFFFF#32, fun _ => .keychk⟩,
    ⟨0x00000009#32, 0xFFFFFFFF#32, fun _ => .serdec⟩,
    ⟨0x0000000A#32, 0xFFFFFFFF#32, fun _ => .serenc⟩ ]

/-- A word is of a row (R79). -/
def OpcodeRow.covers (r : OpcodeRow) (w : Word) : Bool := w &&& r.mask == r.pattern

/-- The command a word stands for, or none: every word decodes to one row of R79 or is illegal (R80). -/
def decode (w : Word) : Option Instr :=
  (opcodeRows.find? fun r => r.covers w).map fun r => r.command (fieldsOf w)

/-- The three ways a word is illegal (R80). -/
inductive IllegalWord where
  | reservedOpcode
  | reservedBitSet
  | unusedFieldSet
  deriving DecidableEq, Repr

/-- Decoding that rejects by name (R80). -/
def decodeWord (w : Word) : Except IllegalWord Instr :=
  match decode w with
  | some i => .ok i
  | none =>
    if !(fieldsOf w).opLegal then .error .reservedOpcode
    else if !(fieldsOf w).rsvLegal then .error .reservedBitSet
    else .error .unusedFieldSet

/-- The word with the given fields (R77). -/
def pack (f : CmdFields) : Word :=
  f.rsv ++ BitVec.ofBool f.key ++ BitVec.ofBool f.var ++ BitVec.ofBool f.adv ++ f.op

/-- `enc(C)`, the word of a command (R86). -/
def encode (i : Instr) : Word := pack i.fields

/-- The command that the decoder reads from a table word of `nbits` bits (one 32-bit word, R82; bits above `nbits` are 0). -/
def decodeTableWord (nbits w : Nat) : Option Instr :=
  decode (BitVec.ofNat 32 (w % 2 ^ nbits))

end Sys2Proof
end

