-- ==== Sys2Proof/Config.lean ====
section
/-! DEFINITION. The fixed constants of 00_scope.md R7 to R9, the type of the parameters of R10, and the free
values: constants with no body, of which nothing can be proved. -/

namespace Sys2Proof

/-- A run of `len` consecutive addresses from `base`: the spec's `[base, len)` (20_memory.md R59). -/
structure Region where
  base : Nat
  len  : Nat
  deriving DecidableEq, Repr

namespace Config

/-- `ENC_SIZE`, the size of an obfuscated image (R7). -/
def encSize : Nat := 0x25D00
/-- `PLAIN_SIZE`, the size of a plaintext image (R7). -/
def plainSize : Nat := 0x1E400
/-- `CBLK`, the size of an obfuscated block (R7). -/
def cblk : Nat := 80
/-- `PBLK`, the size of a plaintext block (R7). -/
def pblk : Nat := 64
/-- `PAD`, padding bytes per obfuscated block (R7). -/
def pad : Nat := 16
/-- `NBLK`, blocks per image (R7). -/
def nblk : Nat := 1936
/-- `BLK_STEP`, the index step between blocks (R7). -/
def blkStep : Nat := 4
/-- `XOR_TABLE_REGION`, the first byte of the first table window (R8). -/
def xorTableRegion : Nat := 0x1EEDF
/-- `WIN_COUNT`, the number of table windows (R8). -/
def winCount : Nat := 16
/-- `WIN_LEN`, bytes per window (R8). -/
def winLen : Nat := 16
/-- `WIN_STRIDE`, the distance between window starts (R8). -/
def winStride : Nat := 320
/-- `SERIAL_RECORD_OFFSET` (R8). -/
def serialRecordOffset : Nat := 0x1FD00
/-- `SER_LEN`, the length of a serial record (R9). -/
def serLen : Nat := 80
/-- `SER_IDX0`, the initial serial rotating index (R9). -/
def serIdx0 : Nat := 10
/-- `SER_RAND_LO`, the first regenerated byte of a record (R9). -/
def serRandLo : Nat := 32
/-- One past `SER_RAND_HI` = 77, which is also the number of bytes the attempt's CRC covers (R9, R131). -/
def serCrcLo : Nat := 78
/-- Draws per SERENC attempt, bytes 32..77 (R131). -/
def serDraws : Nat := 46
/-- `SER_THRESH`, the acceptance threshold of the serial CRC-16, exclusive (R9). -/
def serThresh : Nat := 0x2000
/-- One past the highest address of the shared memory, `2 ^ ADDR_W` (R11, 20_memory.md R58). -/
def addrTop : Nat := 2 ^ 32

end Config

/-- The bound of `SER_TAB_OFF`: `SER_TAB_OFF + 89 < ENC_SIZE` (R10), so below 0x25D00 - 89. -/
abbrev Config.serTabOffBound : Nat := 154791

/-- The parameters that the model takes (00_scope.md R10). A step takes one argument, so State carries them, and no
step changes them (log 1). `admitted` is given by the regions it leaves out: an address below 2^32 is
admitted exactly when no hole holds it (20_memory.md R60, log 3). `refusing` are the regions where the platform breaks
its promise: it refuses an access that admission allowed, which leaves the engine stuck (R60, log 10). -/
structure Params where
  decInit   : Byte
  encInit   : Byte
  serTabOff : Fin Config.serTabOffBound
  crc32Poly : Word
  crc16Poly : Half
  crc16Init : Half
  holes     : List Region
  refusing  : List Region
  deriving DecidableEq, Repr

namespace Config

/-- `DEC_INIT`, which the source does not give (R10, D18). -/
opaque decInit : Byte
/-- `ENC_INIT`, which the source does not give (R10, D18). -/
opaque encInit : Byte
/-- `SER_TAB_OFF`, which the source does not give; the type is its constraint `SER_TAB_OFF + 89 < ENC_SIZE` (R10, D19). -/
opaque serTabOff : Fin serTabOffBound
/-- `CRC16_POLY`, which the source does not give (R10, D21). -/
opaque crc16Poly : Half
/-- `CRC16_INIT`, which the source does not give (R10, D21). -/
opaque crc16Init : Half

/-- FREE VALUE. The draw of the random byte source at position n (State's `drawPos`), when State's `supply` holds no byte
for it (R18: a draw is under no law; log 9). -/
opaque draw : Nat → Byte

/-- FREE VALUE. Any value: bytes after a reset that hit a busy command, racing host reads, T and PEND after a
reset turn (70_reset_and_hazards.md R158, R159, R165; logs 6, 14, 20). -/
opaque freeByte : Nat → Byte

/-- FREE VALUE. How many draws, beyond those of its past turns, a command abandoned by reset took from the source (R158, log 15). -/
opaque freeCount : Nat → Nat

/-- The parameters right after reset: free where the source gives nothing; the default of R10 for `CRC32_POLY`;
the whole address space admitted and no promise broken (log 2). -/
def params : Params where
  decInit   := decInit
  encInit   := encInit
  serTabOff := serTabOff
  crc32Poly := 0xEDB88320#32
  crc16Poly := crc16Poly
  crc16Init := crc16Init
  holes     := []
  refusing  := []

end Config

end Sys2Proof
end

