-- ==== Sys2Proof/Machine/State.lean ====
section
/-! DEFINITION. The state of the BTE and of its platform (10_state.md R21), as plain data, and the state right after
reset (70_reset_and_hazards.md R159). -/

namespace Sys2Proof.Machine

/-- The shared byte memory `M` (20_memory.md R58): address and byte pairs, addresses strictly rising, no entry equal to
what an unlisted address reads as (`Memory.wf` in Ops.lean says so). -/
abbrev Memory := List Host.Cell

/-- Why a step stops: it never does, so there is no constructor. An error is a completion code (60_exceptions.md R138), a hazard and
a refused register access are marks (R57), and a stuck engine is a state in which its turns change nothing (20_memory.md R60,
60_exceptions.md R155, log 10). -/
inductive Fault where
  deriving DecidableEq, Repr

/-- Why an instruction has no meaning here. -/
inductive Refusal where
  /-- An arm of `exec` whose command has no meaning yet. No arm raises it. Safe: the model stops. -/
  | notModelled (mnemonic : String)
  deriving DecidableEq, Repr

/-- The completion codes that a command can write (60_exceptions.md R138). -/
inductive ErrCode where
  | ok
  | illegalCmd
  | checksum
  | notLoaded
  | noTable
  | busError
  | overlap
  | retryBudget
  deriving DecidableEq, Repr

/-- `SER`, the working state of SERENC (10_state.md R56): the record, the key, the number of attempts made. `drawn` is the model's
own: the draws made so far, which are counted when the command completes (log 15). -/
structure SerWork where
  buf   : Vector Byte 80
  key   : Vector Byte 80
  n     : Word
  drawn : Nat
  deriving DecidableEq, Repr

/-- `PHASE` (10_state.md R55). `SER` exists only while the phase is SERLOOP (R56), so it is that phase's argument (log 16). -/
inductive Phase where
  | idle
  | pending
  | serloop (ser : SerWork)
  deriving DecidableEq, Repr

/-- What the host does in one of its turns (30_encoding.md R74, R84, R85). `width` is the width of the access in bits. -/
inductive HostOp where
  | regRead (off width : Nat)
  | regWrite (off width : Nat) (w : Word)
  | memRead (addr : Word)
  | memWrite (addr : Word) (b : Byte)
  | waitDone
  deriving DecidableEq, Repr

/-- One turn of one agent (00_scope.md R6). The random byte source acts inside the engine's turn. -/
inductive Turn where
  | host (op : HostOp)
  | engine
  | reset
  deriving DecidableEq, Repr

/-- What a read returned to the host (30_encoding.md R74, R84). -/
inductive Answer where
  | word (w : Word)
  | byte (b : Byte)
  deriving DecidableEq, Repr

/-- `Marks` (10_state.md R57). `faults` is the set of HAZARD addresses, in rising order with no repeats (log 19). -/
structure Marks where
  faults  : List Nat
  refused : Bool
  deriving DecidableEq, Repr

/-- A place of the register map (30_encoding.md R75): a mapped register, word `k` of the TAB window, or an unmapped offset. -/
inductive RegSlot where
  | cmd | status | cfg | idx | src | dst | img | imga | imgcs | scr | len
  | crc32Seed | crc32Expect | crc32Result | crc16Result | serRetryMax | serAttempts | cmdLast
  | tab (k : Nat)
  | unmapped
  deriving DecidableEq, Repr

/-- The state record (10_state.md R21), with the platform's memory and the model's own fields. -/
structure State where
  /-- `STATUS.DONE` (R27) -/
  done : Bool
  /-- `STATUS.ERRCODE` (R28) -/
  errcode : BitVec 4
  /-- `STATUS.OVR` (R29) -/
  ovr : Bool
  /-- `STATUS.TVALID` (R30) -/
  tvalid : Bool
  /-- `STATUS.CRCOK` (R31) -/
  crcok : Bool
  /-- `STATUS.RECOK` (R32) -/
  recok : Bool
  /-- `CFG.READY` (R34) -/
  ready : Bool
  /-- `CFG.IE` (R35) -/
  ie : Bool
  /-- `IDX[7:0]` (R36) -/
  idx : Byte
  /-- `SRC` (R37) -/
  src : Word
  /-- `DST` (R38) -/
  dst : Word
  /-- `IMG` (R39) -/
  img : Word
  /-- `IMGA` (R40) -/
  imga : Word
  /-- `IMGCS` (R41) -/
  imgcs : Word
  /-- `SCR` (R42) -/
  scr : Word
  /-- `LEN` (R43) -/
  len : Word
  /-- `CRC32_SEED` (R44) -/
  crc32Seed : Word
  /-- `CRC32_EXPECT` (R45) -/
  crc32Expect : Word
  /-- `CRC32_RESULT` (R46) -/
  crc32Result : Word
  /-- `CRC16_RESULT[15:0]` (R47) -/
  crc16Result : Half
  /-- `SER_RETRY_MAX` (R48) -/
  serRetryMax : Word
  /-- `SER_ATTEMPTS` (R49) -/
  serAttempts : Word
  /-- `CMD_LAST` (R50) -/
  cmdLast : Word
  /-- `T` (R53) -/
  tab : Vector Byte 256
  /-- `PHASE` and, in SERLOOP, `SER` (R55, R56) -/
  phase : Phase
  /-- `PEND` (R55) -/
  pend : Word
  /-- `Marks` (R57) -/
  marks : Marks
  /-- `M` (20_memory.md R58) -/
  mem : Memory
  /-- the bytes the random byte source has in hand for the next draws (00_scope.md R6, R18; log 9) -/
  supply : List Byte
  /-- the number of draws consumed (70_reset_and_hazards.md R172), those of completed commands (R158, log 15) -/
  drawCount : Nat
  /-- the position of the random byte source, which numbers the free values among its draws (log 9) -/
  drawPos : Nat
  /-- the number of free values taken by resets and racing reads (R158, R165; logs 6, 14, 20) -/
  frees : Nat
  /-- the parameters of 00_scope.md R10, which no step changes (log 1) -/
  params : Params
  /-- the turns still to be taken, first first (R171; log 7) -/
  agenda : List Turn
  /-- what the host's reads have returned, newest first (log 12) -/
  answers : List Answer
  deriving DecidableEq, Repr

/-- The machine right after reset (70_reset_and_hazards.md R159). `T` and `PEND`, which the spec leaves unspecified there, are zero
(log 5); nothing is listed in memory (log 4); the model's own fields are empty (log 23). -/
def State.reset : State where
  done := false
  errcode := 0#4
  ovr := false
  tvalid := false
  crcok := false
  recok := false
  ready := false
  ie := false
  idx := 0#8
  src := 0#32
  dst := 0#32
  img := 0#32
  imga := 0#32
  imgcs := 0#32
  scr := 0#32
  len := 0#32
  crc32Seed := 0xFFFFFFFF#32
  crc32Expect := 0#32
  crc32Result := 0#32
  crc16Result := 0#16
  serRetryMax := 0#32
  serAttempts := 0#32
  cmdLast := 0#32
  tab := Vector.replicate 256 0#8
  phase := .idle
  pend := 0#32
  marks := { faults := [], refused := false }
  mem := []
  supply := []
  drawCount := 0
  drawPos := 0
  frees := 0
  params := Config.params
  agenda := []
  answers := []

end Sys2Proof.Machine
end

