-- ==== Sys2Proof/Machine/Ops.lean ====
section
/-! DEFINITION. The shared operations of the machine: regions and memory (20_memory.md), byte sequences, draws
(00_scope.md R18), issue and completion (40_control.md R91, R95). Completion is the only way an error is delivered: the
BTE has no trap entry and no return (60_exceptions.md R144). -/

namespace Sys2Proof.Machine

/-! ### Regions -/

/-- Address `a` lies in the region. -/
def inRegion (r : Region) (a : Nat) : Bool := r.base ≤ a && a < r.base + r.len

/-- Two regions share an address. -/
def meets (r q : Region) : Bool := max r.base q.base < min (r.base + r.len) (q.base + q.len)

/-- Some region of the first list shares an address with some region of the second. -/
def meetsAny (rs qs : List Region) : Bool := rs.any fun r => qs.any fun q => meets r q

/-! ### Byte sequences -/

/-- `X[i]` (00_scope.md R14). -/
def byteAt (X : Bytes) (i : Nat) : Byte := X.getD i 0#8

/-- The sequence of length `n` whose byte `i` is `f i`. -/
def seqOf (n : Nat) (f : Nat → Byte) : Bytes := (List.range n).map f

/-- The same as a vector. -/
def vecOf (n : Nat) (f : Nat → Byte) : Vector Byte n := ⟨((List.range n).map f).toArray, by simp⟩

/-- `X[a .. a+n-1]` (R14). -/
def slice (X : Bytes) (a n : Nat) : Bytes := (X.drop a).take n

/-- An 80-byte record (10_state.md R56) with the bytes of a sequence. -/
def record (X : Bytes) : Vector Byte 80 := vecOf 80 (byteAt X)

/-! ### The shared memory -/

namespace Memory

/-- What an address that is not listed reads as (log 4). -/
def unlisted : Byte := 0#8

/-- `MemRead(a, 1)` (00_scope.md R17). -/
def read (m : Memory) (a : Nat) : Byte :=
  match m.find? fun c => c.1 == a with
  | some c => c.2
  | none => unlisted

/-- The cells that hold a sequence from address `a` on, none for a byte that an unlisted address reads as. -/
def cells : Nat → Bytes → Memory
  | _, [] => []
  | a, b :: X => if b = unlisted then cells (a + 1) X else (a, b) :: cells (a + 1) X

/-- `for i in 0..n-1: MemWrite(a + i, 1, X[i])` (R17, 20_memory.md R61). -/
def write (m : Memory) (a : Nat) (X : Bytes) : Memory :=
  (m.filter fun c => c.1 < a) ++ cells a X ++ m.filter fun c => a + X.length ≤ c.1

/-- `MemWrite(a, 1, b)` (R17). -/
def writeByte (m : Memory) (a : Nat) (b : Byte) : Memory := write m a [b]

/-- `bytes(M, a, n)` (R14). -/
def bytes (m : Memory) (a n : Nat) : Bytes := seqOf n fun i => read m (a + i)

/-- The canonical form: addresses strictly rising and below 2^32 (20_memory.md R58), no entry equal to what an unlisted
address reads as. -/
abbrev wf (m : Memory) : Prop :=
  m.Pairwise (fun c d => c.1 < d.1) ∧ (∀ c ∈ m, c.2 ≠ unlisted) ∧ ∀ c ∈ m, c.1 < Config.addrTop

end Memory

/-! ### Draws and free values -/

/-- The next `n` draws of the random byte source, in the order they are drawn (00_scope.md R18): the bytes it has in hand, then
free values numbered by the source's position (log 9). -/
def drawBytes : Nat → List Byte → Nat → Bytes
  | 0, _, _ => []
  | n + 1, [], k => Config.draw k :: drawBytes n [] (k + 1)
  | n + 1, b :: bs, k => b :: drawBytes n bs (k + 1)

/-- The next `n` draws from a state. -/
def draws (n : Nat) (s : State) : Bytes := drawBytes n s.supply s.drawPos

/-- The source moves on by `n` draws, and `c` draws are counted as consumed by a command that now completes
(70_reset_and_hazards.md R172, log 15). -/
def consumeDraws (n c : Nat) (s : State) : State :=
  { s with supply := s.supply.drop n, drawPos := s.drawPos + n, drawCount := s.drawCount + c }

/-- `n` free bytes, numbered from `k`: any values. -/
def freeBytes (k n : Nat) : Bytes := seqOf n fun i => Config.freeByte (k + i)

/-! ### Issue and completion -/

/-- `STATUS.BUSY` (10_state.md R26). -/
def busy (s : State) : Bool :=
  match s.phase with
  | .idle => false
  | .pending => true
  | .serloop _ => true

/-- Issue of a word (40_control.md R91). -/
def issue (w : Word) (s : State) : State :=
  { s with pend := w, phase := .pending, done := false }

/-- The value of a completion code (60_exceptions.md R138). -/
def codeOf : ErrCode → BitVec 4
  | .ok => 0#4
  | .illegalCmd => 1#4
  | .checksum => 2#4
  | .notLoaded => 3#4
  | .noTable => 4#4
  | .busError => 5#4
  | .overlap => 6#4
  | .retryBudget => 7#4

/-- `complete(code)` (40_control.md R95). -/
def complete (e : ErrCode) (s : State) : State :=
  { s with errcode := codeOf e, done := true, cmdLast := s.pend, phase := .idle }

/-! ### Register updates that several commands share -/

/-- The memory writes of a command. -/
def storeBytes (a : Nat) (X : Bytes) (s : State) : State :=
  { s with mem := Memory.write s.mem a X }

/-- `T <- t` (10_state.md R53). -/
def setTable (t : Vector Byte 256) (s : State) : State :=
  { s with tab := t }

/-- `STATUS.TVALID <- 1` (10_state.md R30). -/
def setTvalid (s : State) : State :=
  { s with tvalid := true }

/-- `if ADV = 1 then IDX <- (IDX + 4) mod 256` (42_block_transform.md R113, R114). -/
def advanceIdx (adv : Bool) (s : State) : State :=
  { s with idx := if adv then s.idx + 4#8 else s.idx }

/-- `CRC32_RESULT <- r` and `CRCOK <- ok` (41_checksum.md R102). -/
def setCrc32 (r : Word) (ok : Bool) (s : State) : State :=
  { s with crc32Result := r, crcok := ok }

/-- `CRC16_RESULT <- c` and `RECOK <- ok` (41_checksum.md R103). -/
def setCrc16 (c : Half) (ok : Bool) (s : State) : State :=
  { s with crc16Result := c, recok := ok }

/-- `SER_ATTEMPTS <- n` (45_serial_record.md R134 to R136). -/
def setAttempts (n : Word) (s : State) : State :=
  { s with serAttempts := n }

/-- `PHASE <- SERLOOP` with its working state (45_serial_record.md R134, R135). -/
def enterLoop (w : SerWork) (s : State) : State :=
  { s with phase := .serloop w }

end Sys2Proof.Machine
end

