-- ==== Sys2Proof/Machine/Operands.lean ====
section
/-! DEFINITION. Operands of the commands (30_encoding.md R83): image selection, footprints (20_memory.md R59), the ordered checks
(40_control.md R94), and the frame every command runs in. -/

namespace Sys2Proof.Machine

/-- `IMGSEL(v)` (00_scope.md R20). -/
def imgSel (v : Variant) (s : State) : Nat :=
  match v with
  | .a => s.imga.toNat
  | .cs => s.imgcs.toNat

/-- `TW(b)`, the table windows of the image at `b` (R59). -/
def tableWindows (b : Nat) : List Region :=
  (List.range Config.winCount).map fun k => ⟨b + Config.xorTableRegion + Config.winStride * k, Config.winLen⟩

/-- `SK(b)`, the serial key bytes of the image at `b` (R59). -/
def serialKeyRegion (p : Params) (b : Nat) : Region :=
  ⟨b + p.serTabOff.val + Config.serIdx0, Config.serLen⟩

/-- The whole obfuscated image at `b`. -/
def imageRegion (b : Nat) : Region := ⟨b, Config.encSize⟩

/-- A read footprint and a write footprint (R59). -/
structure Footprint where
  rd : List Region
  wr : List Region
  deriving DecidableEq, Repr

/-- The footprints of a command, from its word and the registers (R59). -/
def footprint (i : Instr) (s : State) : Footprint :=
  match i with
  | .nop => ⟨[], []⟩
  | .ldtab => ⟨tableWindows s.img.toNat, []⟩
  | .decblk _ => ⟨[⟨s.src.toNat, Config.cblk⟩], [⟨s.dst.toNat, Config.pblk⟩]⟩
  | .encblk _ => ⟨[⟨s.src.toNat, Config.pblk⟩], [⟨s.dst.toNat, Config.cblk⟩]⟩
  | .decimg => ⟨[imageRegion s.src.toNat], [⟨s.dst.toNat, Config.plainSize⟩]⟩
  | .encimg k => ⟨⟨s.src.toNat, Config.plainSize⟩ :: tableWindows (imgSel k s), [imageRegion s.dst.toNat]⟩
  | .getenc v k =>
    if v = k then ⟨[imageRegion (imgSel v s)], [imageRegion s.dst.toNat]⟩
    else ⟨imageRegion (imgSel v s) :: tableWindows (imgSel k s),
      [⟨s.scr.toNat, Config.plainSize⟩, imageRegion s.dst.toNat]⟩
  | .crc32v => ⟨[⟨s.src.toNat, s.len.toNat⟩], []⟩
  | .keychk => ⟨[⟨s.src.toNat, Config.serLen⟩], []⟩
  | .serdec => ⟨[⟨s.img.toNat + Config.serialRecordOffset, Config.serLen⟩, serialKeyRegion s.params s.img.toNat],
      [⟨s.dst.toNat, Config.serLen⟩]⟩
  | .serenc => ⟨[⟨s.src.toNat, Config.serLen⟩, serialKeyRegion s.params s.img.toNat], [⟨s.dst.toNat, Config.serLen⟩]⟩

/-- The footprints of the command whose word is in `PEND`; an illegal word has none (R59). -/
def pendingFootprint (s : State) : Footprint :=
  match decode s.pend with
  | some i => footprint i s
  | none => ⟨[], []⟩

/-! ### The ordered checks (40_control.md R94) -/

/-- Check 2 is made for this command. -/
def needsReady : Instr → Bool
  | .nop => false
  | .ldtab => false
  | .decblk _ => false
  | .encblk _ => false
  | .decimg => false
  | .encimg _ => true
  | .getenc _ _ => true
  | .crc32v => false
  | .keychk => false
  | .serdec => false
  | .serenc => false

/-- Check 3 is made for this command. -/
def needsTable : Instr → Bool
  | .nop => false
  | .ldtab => false
  | .decblk _ => true
  | .encblk _ => true
  | .decimg => false
  | .encimg _ => false
  | .getenc _ _ => false
  | .crc32v => false
  | .keychk => false
  | .serdec => false
  | .serenc => false

/-- The predicate `admitted` on addresses (20_memory.md R60, log 3). -/
def admitted (p : Params) (a : Nat) : Bool := !(p.holes.any fun h => inRegion h a)

/-- Every address of the region is below 2^32 and admitted (R60). -/
def regionAdmitted (p : Params) (r : Region) : Bool :=
  (r.len == 0 || r.base + r.len ≤ Config.addrTop) && !(p.holes.any fun h => meets h r)

/-- The admission check of a footprint (R60). -/
def admits (p : Params) (f : Footprint) : Bool := (f.rd ++ f.wr).all (regionAdmitted p)

/-- The regions of the two stored images (20_memory.md R62). -/
def storedImages (s : State) : List Region := [imageRegion s.imga.toNat, imageRegion s.imgcs.toNat]

/-- The write regions of a cross-keying GETENC meet each other (R62). -/
def crossKeyOverlap (i : Instr) (s : State) : Bool :=
  match i with
  | .nop => false
  | .ldtab => false
  | .decblk _ => false
  | .encblk _ => false
  | .decimg => false
  | .encimg _ => false
  | .getenc v k => v != k && meets ⟨s.scr.toNat, Config.plainSize⟩ (imageRegion s.dst.toNat)
  | .crc32v => false
  | .keychk => false
  | .serdec => false
  | .serenc => false

/-- The overlap check fails (R62). -/
def overlaps (i : Instr) (s : State) : Bool :=
  meetsAny (footprint i s).wr (footprint i s).rd || crossKeyOverlap i s
    || (s.ready && meetsAny (footprint i s).wr (storedImages s))

/-- The first of checks 2 to 5 that fails, with its code (R94). Check 1 is the decode of the engine turn. -/
def firstFailure (i : Instr) (s : State) : Option ErrCode :=
  if needsReady i && !s.ready then some .notLoaded
  else if needsTable i && !s.tvalid then some .noTable
  else if !admits s.params (footprint i s) then some .busError
  else if overlaps i s then some .overlap
  else none

/-- The platform refuses some access in these regions although admission allowed it (20_memory.md R60, log 10). -/
def refuses (p : Params) (rs : List Region) : Bool := p.refusing.any fun h => rs.any fun r => meets h r

/-- A command's first engine step (40_control.md R93, R94): the checks, then its effect, which accesses the regions `rs`. A failed check
completes the command with its code. Where the platform refuses one of these accesses although the checks have passed, the engine has no
step (20_memory.md R60): its turn changes nothing, so the command never completes (log 10). The whole effect is one step (log 24). -/
def runAccessing (i : Instr) (rs : List Region) (effect : State → State) (s : State) : Host.Outcome State Fault Refusal :=
  .next (match firstFailure i s with
    | some e => complete e s
    | none => if refuses s.params rs then s else effect s)

/-- The first engine step of a command whose effect accesses its whole footprint. -/
def runCommand (i : Instr) (effect : State → State) (s : State) : Host.Outcome State Fault Refusal :=
  runAccessing i ((footprint i s).rd ++ (footprint i s).wr) effect s

end Sys2Proof.Machine
end

