-- ==== Sys2Proof/Machine/Block.lean ====
section
/-! DEFINITION. The block transform and its commands (42_block_transform.md). -/

namespace Sys2Proof.Machine

/-- `T[k]` for an 8-bit index. -/
def tabAt (T : Vector Byte 256) (k : Byte) : Byte := T[k.toNat]'k.isLt

/-- `xor_rot(X, T, idx)` (R105). -/
def xorRot (X : Bytes) (T : Vector Byte 256) (idx : Byte) : Bytes :=
  seqOf X.length fun i => byteAt X i ^^^ tabAt T (idx + BitVec.ofNat 8 i)

/-- `shr3(X)` (R106). -/
def shr3 (X : Bytes) : Bytes :=
  seqOf X.length fun i => if i = 0 then byteAt X 0 >>> 3 else (byteAt X i >>> 3) ||| (byteAt X (i - 1) <<< 5)

/-- `shl3(X)` (R108). -/
def shl3 (X : Bytes) : Bytes :=
  seqOf X.length fun i =>
    if i + 1 < X.length then (byteAt X i <<< 3) ||| (byteAt X (i + 1) >>> 5) else byteAt X i <<< 3

/-- `swap Y[i], Y[j]` (R107). -/
def swapBytes (Y : Bytes) (i j : Nat) : Bytes := (Y.set i (byteAt Y j)).set j (byteAt Y i)

/-- The loop indices `0, 4, 8, ...` below `n div 2` (R107, D16). -/
def mirrorIndices (n : Nat) : List Nat := (List.range (n / 2)).filter fun i => i % 4 == 0

/-- `mirror4(X)` (R107). -/
def mirror4 (X : Bytes) : Bytes :=
  (mirrorIndices X.length).foldl (fun Y i => swapBytes Y i (X.length - 1 - i)) X

/-- The 80-byte decrypt stream, before truncation (R109, R111). -/
def decStream (C : Bytes) (T : Vector Byte 256) (idx : Byte) : Bytes := mirror4 (shr3 (xorRot C T idx))

/-- `dec_block(C, T, idx)` (R109). -/
def decBlock (C : Bytes) (T : Vector Byte 256) (idx : Byte) : Bytes := (decStream C T idx).take Config.pblk

/-- `enc_block(P, R, T, idx)` (R110). -/
def encBlock (P R : Bytes) (T : Vector Byte 256) (idx : Byte) : Bytes := xorRot (shl3 (mirror4 (P ++ R))) T idx

/-- The effect of DECBLK (R113). -/
def decblkEffect (adv : Bool) (s : State) : State :=
  let P := decBlock (Memory.bytes s.mem s.src.toNat Config.cblk) s.tab s.idx
  complete .ok (advanceIdx adv (storeBytes s.dst.toNat P s))

/-- DECBLK (R113). -/
def execDecblk (adv : Bool) (s : State) : Host.Outcome State Fault Refusal :=
  runCommand (.decblk adv) (decblkEffect adv) s

/-- The effect of ENCBLK (R114): 16 draws. -/
def encblkEffect (adv : Bool) (s : State) : State :=
  let C := encBlock (Memory.bytes s.mem s.src.toNat Config.pblk) (draws Config.pad s) s.tab s.idx
  complete .ok (advanceIdx adv (storeBytes s.dst.toNat C (consumeDraws Config.pad Config.pad s)))

/-- ENCBLK (R114). -/
def execEncblk (adv : Bool) (s : State) : Host.Outcome State Fault Refusal :=
  runCommand (.encblk adv) (encblkEffect adv) s

end Sys2Proof.Machine
end

