-- ==== Sys2Proof/Machine/Checksum.lean ====
section
/-! DEFINITION. The checksum functions and their commands (41_checksum.md). -/

namespace Sys2Proof.Machine

/-- One bit of a reflected CRC (R98, R100). -/
def crcBit {w : Nat} (poly c : BitVec w) : BitVec w :=
  if c.getLsbD 0 then (c >>> 1) ^^^ poly else c >>> 1

/-- One byte of a reflected CRC: XOR it in, then eight bits (R98, R100). -/
def crcByte {w : Nat} (poly c : BitVec w) (b : Byte) : BitVec w :=
  Nat.repeat (crcBit poly) 8 (c ^^^ b.setWidth w)

/-- `crc32_update(c, X)` (R98). -/
def crc32Update (poly c : Word) (X : Bytes) : Word := X.foldl (crcByte poly) c

/-- `crc32_value(seed, X)` (R99). -/
def crc32Value (poly seed : Word) (X : Bytes) : Word := ~~~ crc32Update poly seed X

/-- `crc16(X)` (R100). -/
def crc16 (poly init : Half) (X : Bytes) : Half := X.foldl (crcByte poly) init

/-- `crc16` under the machine's parameters. -/
def recordCrc (p : Params) (X : Bytes) : Half := crc16 p.crc16Poly p.crc16Init X

/-- The effect of CRC32V (R102). -/
def crc32vEffect (s : State) : State :=
  let r := crc32Value s.params.crc32Poly s.crc32Seed (Memory.bytes s.mem s.src.toNat s.len.toNat)
  if r = s.crc32Expect then complete .ok (setCrc32 r true s)
  else complete .checksum (setCrc32 r false s)

/-- CRC32V (R102). -/
def execCrc32v (s : State) : Host.Outcome State Fault Refusal :=
  runCommand .crc32v crc32vEffect s

/-- The effect of KEYCHK (R103). -/
def keychkEffect (s : State) : State :=
  let c := recordCrc s.params (Memory.bytes s.mem s.src.toNat Config.serLen)
  complete .ok (setCrc16 c (decide (c = 0#16)) s)

/-- KEYCHK (R103). -/
def execKeychk (s : State) : Host.Outcome State Fault Refusal :=
  runCommand .keychk keychkEffect s

end Sys2Proof.Machine
end

