-- ==== Sys2Proof/Machine/Table.lean ====
section
/-! DEFINITION. The XOR table extractor and LDTAB (43_xor_table.md). -/

namespace Sys2Proof.Machine

/-- `extract_table(b)` (R115): byte `16 k + j` is the complement of byte `j` of window `k`. -/
def extractTable (m : Memory) (b : Nat) : Vector Byte 256 :=
  vecOf 256 fun t =>
    ~~~ Memory.read m (b + Config.xorTableRegion + Config.winStride * (t / Config.winLen) + t % Config.winLen)

/-- The effect of LDTAB (R117). -/
def ldtabEffect (s : State) : State :=
  complete .ok (setTvalid (setTable (extractTable s.mem s.img.toNat) s))

/-- LDTAB (R117). -/
def execLdtab (s : State) : Host.Outcome State Fault Refusal :=
  runCommand .ldtab ldtabEffect s

end Sys2Proof.Machine
end

