-- ==== Sys2Proof/Machine/Codec.lean ====
section
/-! DEFINITION. The firmware codec: DECIMG, ENCIMG, GETENC (44_firmware_codec.md). -/

namespace Sys2Proof.Machine

/-- `idx(init, n) = (init + 4 n) mod 256` (R119). -/
def blockIdx (init : Byte) (n : Nat) : Byte := init + BitVec.ofNat 8 (Config.blkStep * n)

/-- `dec_image(S, T, init)` (R120). -/
def decImage (S : Bytes) (T : Vector Byte 256) (init : Byte) : Bytes :=
  (List.range Config.nblk).flatMap fun n => decBlock (slice S (Config.cblk * n) Config.cblk) T (blockIdx init n)

/-- `enc_image(P, T, init)` with its draws `R` (R121): draw `d` is padding byte `d mod 16` of block `d div 16`. -/
def encImage (P R : Bytes) (T : Vector Byte 256) (init : Byte) : Bytes :=
  (List.range Config.nblk).flatMap fun n =>
    encBlock (slice P (Config.pblk * n) Config.pblk) (slice R (Config.pad * n) Config.pad) T (blockIdx init n)

/-- The draws of one `enc_image` call: 30976 (R121). -/
def imageDraws : Nat := Config.nblk * Config.pad

/-- Encrypt the plaintext at `p` under the table of the image at `b` and store it at `d`: the common part of ENCIMG and
cross-keying GETENC (R123, R125). -/
def encryptTo (p b d : Nat) (s : State) : State :=
  let T := extractTable s.mem b
  let Out := encImage (Memory.bytes s.mem p Config.plainSize) (draws imageDraws s) T s.params.encInit
  storeBytes d Out (consumeDraws imageDraws imageDraws (setTable T s))

/-- Decrypt the image at `b` under its own table and store it at `d`: the common part of DECIMG and cross-keying
GETENC (R122, R125). -/
def decryptTo (b d : Nat) (s : State) : State :=
  let T := extractTable s.mem b
  let Out := decImage (Memory.bytes s.mem b Config.encSize) T s.params.decInit
  storeBytes d Out (setTable T s)

/-- The effect of DECIMG (R122). -/
def decimgEffect (s : State) : State :=
  complete .ok (setTvalid (decryptTo s.src.toNat s.dst.toNat s))

/-- DECIMG (R122). -/
def execDecimg (s : State) : Host.Outcome State Fault Refusal :=
  runCommand .decimg decimgEffect s

/-- The effect of ENCIMG (R123). -/
def encimgEffect (k : Variant) (s : State) : State :=
  complete .ok (setTvalid (encryptTo s.src.toNat (imgSel k s) s.dst.toNat s))

/-- ENCIMG (R123). -/
def execEncimg (k : Variant) (s : State) : Host.Outcome State Fault Refusal :=
  runCommand (.encimg k) (encimgEffect k) s

/-- The effect of GETENC (R125): a copy when VAR = KEY; otherwise decrypt to SCR, then encrypt what SCR holds. -/
def getencEffect (v k : Variant) (s : State) : State :=
  if v = k then
    complete .ok (storeBytes s.dst.toNat (Memory.bytes s.mem (imgSel v s) Config.encSize) s)
  else
    complete .ok (setTvalid (encryptTo s.scr.toNat (imgSel k s) s.dst.toNat (decryptTo (imgSel v s) s.scr.toNat s)))

/-- GETENC (R125). -/
def execGetenc (v k : Variant) (s : State) : Host.Outcome State Fault Refusal :=
  runCommand (.getenc v k) (getencEffect v k) s

end Sys2Proof.Machine
end

