-- ==== Sys2Proof/Machine/Control.lean ====
section
/-! DEFINITION. NOP and the illegal command word (40_control.md R96, R97). -/

namespace Sys2Proof.Machine

/-- NOP (R96). -/
def execNop (s : State) : Host.Outcome State Fault Refusal :=
  runCommand .nop (complete .ok) s

/-- An illegal command word (R97): check 1 fails. -/
def execIllegal (s : State) : Host.Outcome State Fault Refusal :=
  .next (complete .illegalCmd s)

end Sys2Proof.Machine
end

