-- ==== Sys2Proof/Machine/Serial.lean ====
section
/-! DEFINITION. The serial record codec: SERDEC, SERENC and its attempt step (45_serial_record.md). -/

namespace Sys2Proof.Machine

/-- `ser_key(b)` (R129). -/
def serKey (m : Memory) (p : Params) (b : Nat) : Bytes :=
  seqOf Config.serLen fun i => Memory.read m (b + p.serTabOff.val + (Config.serIdx0 + i) % 256)

/-- `X[i] ^ K[i]` (R130, R132). -/
def xorSeq (X K : Bytes) : Bytes := seqOf X.length fun i => byteAt X i ^^^ byteAt K i

/-- `ser_decrypt(S, K)` (R130). -/
def serDecrypt (S K : Bytes) : Bytes := mirror4 (shr3 (xorSeq S K))

/-- `ser_encrypt(B, K)` (R132). -/
def serEncrypt (B K : Bytes) : Bytes := xorSeq (shl3 (mirror4 B)) K

/-- The effect of SERDEC (R133). -/
def serdecEffect (s : State) : State :=
  let S := Memory.bytes s.mem (s.img.toNat + Config.serialRecordOffset) Config.serLen
  complete .ok (storeBytes s.dst.toNat (serDecrypt S (serKey s.mem s.params s.img.toNat)) s)

/-- SERDEC (R133). -/
def execSerdec (s : State) : Host.Outcome State Fault Refusal :=
  runCommand .serdec serdecEffect s

/-- Write a record's encryption to DST, record the attempts and complete (R134, R136). -/
def storeRecord (B K : Bytes) (n : Word) (s : State) : State :=
  complete .ok (setAttempts n (storeBytes s.dst.toNat (serEncrypt B K) s))

/-- SERENC takes the skip path: its record has CRC-16 zero (R134). -/
def skips (s : State) : Bool := recordCrc s.params (Memory.bytes s.mem s.src.toNat Config.serLen) == 0#16

/-- The effect of SERENC's first step (R134): the skip path, or entry into the loop. -/
def serencEffect (s : State) : State :=
  let B := Memory.bytes s.mem s.src.toNat Config.serLen
  let K := serKey s.mem s.params s.img.toNat
  if skips s then storeRecord B K 0#32 s
  else enterLoop { buf := record B, key := record K, n := 0#32, drawn := 0 } s

/-- What SERENC's first step accesses (R134): it reads the record and the key, and writes to DST on the skip path alone. -/
def serencAccesses (s : State) : List Region :=
  (footprint .serenc s).rd ++ if skips s then (footprint .serenc s).wr else []

/-- SERENC, first step (R134). -/
def execSerenc (s : State) : Host.Outcome State Fault Refusal :=
  runAccessing .serenc (serencAccesses s) serencEffect s

/-! ### The attempt step (R135, R136) -/

/-- `for i in 32..77: B[i] <- rnd()` (R131, R135). -/
def regenerate (B R : Bytes) : Bytes := slice B 0 Config.serRandLo ++ R ++ B.drop Config.serCrcLo

/-- `B[78] <- c[7:0]; B[79] <- c[15:8]` (R136). -/
def sealRecord (B : Bytes) (c : Half) : Bytes := slice B 0 Config.serCrcLo ++ [c.extractLsb' 0 8, c.extractLsb' 8 8]

/-- `min(n + 1, 0xFFFFFFFF)` (R135). -/
def satIncr (n : Word) : Word := if n = 0xFFFFFFFF#32 then n else n + 1#32

/-- The budget is used up (R135). -/
def budgetSpent (max n : Word) : Bool := max != 0#32 && max.toNat ≤ n.toNat

/-- The record after the draws of one attempt (R135). -/
def attemptRecord (w : SerWork) (s : State) : Bytes := regenerate w.buf.toList (draws Config.serDraws s)

/-- The CRC that one attempt tests (R135). -/
def attemptCrc (w : SerWork) (s : State) : Half := recordCrc s.params (slice (attemptRecord w s) 0 Config.serCrcLo)

/-- The attempt's record is accepted (R131, R135). -/
def accepts (w : SerWork) (s : State) : Bool := (attemptCrc w s).toNat < Config.serThresh

/-- The draws of one attempt are taken, and those of the whole command counted, since it completes with this attempt (log 15). -/
def settleDraws (w : SerWork) (s : State) : State :=
  consumeDraws Config.serDraws (w.drawn + Config.serDraws) s

/-- One attempt of the SERENC loop (R135), with finish (R136). Where the platform refuses the output of an accepted record, the engine
has no step: its turn changes nothing (20_memory.md R60, log 10). -/
def attemptSerenc (w : SerWork) (s : State) : Host.Outcome State Fault Refusal :=
  .next (
    if accepts w s then
      if refuses s.params [⟨s.dst.toNat, Config.serLen⟩] then s
      else storeRecord (sealRecord (attemptRecord w s) (attemptCrc w s)) w.key.toList (satIncr w.n) (settleDraws w s)
    else if budgetSpent s.serRetryMax (satIncr w.n) then
      complete .retryBudget (setAttempts (satIncr w.n) (settleDraws w s))
    else enterLoop { w with buf := record (attemptRecord w s), n := satIncr w.n, drawn := w.drawn + Config.serDraws }
      (consumeDraws Config.serDraws 0 s))

end Sys2Proof.Machine
end

