-- ==== Sys2Proof/Machine/Dispatch.lean ====
section
/-! DEFINITION. The first engine step of each command (40_control.md R93), one arm per constructor. -/

namespace Sys2Proof.Machine

def exec (i : Instr) (s : State) : Host.Outcome State Fault Refusal :=
  match i with
  | .nop => Sys2Proof.Machine.execNop s
  | .ldtab => Sys2Proof.Machine.execLdtab s
  | .decblk adv => Sys2Proof.Machine.execDecblk adv s
  | .encblk adv => Sys2Proof.Machine.execEncblk adv s
  | .decimg => Sys2Proof.Machine.execDecimg s
  | .encimg key => Sys2Proof.Machine.execEncimg key s
  | .getenc var key => Sys2Proof.Machine.execGetenc var key s
  | .crc32v => Sys2Proof.Machine.execCrc32v s
  | .keychk => Sys2Proof.Machine.execKeychk s
  | .serdec => Sys2Proof.Machine.execSerdec s
  | .serenc => Sys2Proof.Machine.execSerenc s

end Sys2Proof.Machine
end

