-- ==== Sys2Proof/Machine/Flags.lean ====
section
/-! DEFINITION. The status and configuration words and the interrupt output (10_state.md R25, R33; 60_exceptions.md R146). -/

namespace Sys2Proof.Machine

/-- `STATUS` as the host reads it (R25). -/
def statusWord (s : State) : Word :=
  0#20 ++ BitVec.ofBool s.recok ++ BitVec.ofBool s.crcok ++ BitVec.ofBool s.tvalid ++ BitVec.ofBool s.ovr
    ++ s.errcode ++ 0#2 ++ BitVec.ofBool s.done ++ BitVec.ofBool (busy s)

/-- `CFG` as the host reads it (R33). -/
def cfgWord (s : State) : Word :=
  0#30 ++ BitVec.ofBool s.ie ++ BitVec.ofBool s.ready

/-- The interrupt output: `DONE & IE` (R146). -/
def irq (s : State) : Bool := s.done && s.ie

/-- A host write to `STATUS`: DONE and OVR are cleared by writing 1 (40_control.md R88). -/
def writeStatus (w : Word) (s : State) : State :=
  { s with done := s.done && !w.getLsbD 1, ovr := s.ovr && !w.getLsbD 8 }

/-- A host write to `CFG`: READY is set by writing 1, IE is written (R88). -/
def writeCfg (w : Word) (s : State) : State :=
  { s with ready := s.ready || w.getLsbD 0, ie := w.getLsbD 1 }

end Sys2Proof.Machine
end

