-- ==== Sys2Proof/Machine/Port.lean ====
section
/-! DEFINITION. The host's turns: the register port (40_control.md R87 to R92), its memory accesses (70_reset_and_hazards.md R164,
R165, R168), its polling loop (30_encoding.md R85), and the reset turn (R157 to R159). -/

namespace Sys2Proof.Machine

/-! ### The register port -/

/-- The register map below the TAB window (30_encoding.md R75). -/
def registerMap : List (Nat × RegSlot) :=
  [ (0x000, .cmd), (0x004, .status), (0x008, .cfg), (0x00C, .idx), (0x010, .src), (0x014, .dst), (0x018, .img),
    (0x01C, .imga), (0x020, .imgcs), (0x024, .scr), (0x028, .len), (0x02C, .crc32Seed), (0x030, .crc32Expect),
    (0x034, .crc32Result), (0x038, .crc16Result), (0x03C, .serRetryMax), (0x040, .serAttempts), (0x044, .cmdLast) ]

/-- The place of the map at an offset that the port accepts: a mapped register, a word of the TAB window, or an
unmapped offset (R75, R76). -/
def slotAt (off : Nat) : RegSlot :=
  match registerMap.lookup off with
  | some r => r
  | none => if 0x100 ≤ off && off < 0x200 then .tab ((off - 0x100) / 4) else .unmapped

/-- The port accepts an access of this width at this offset (40_control.md R90). -/
def portAccepts (off width : Nat) : Bool := width == 32 && off % 4 == 0 && off < 0x200

/-- Byte `i` of `T` for the TAB window. -/
def tabByte (T : Vector Byte 256) (i : Nat) : Byte := byteAt T.toList i

/-- Word `k` of the TAB window (10_state.md R54): little-endian, masked by TVALID. -/
def tabWord (s : State) (k : Nat) : Word :=
  if s.tvalid then
    tabByte s.tab (4 * k + 3) ++ tabByte s.tab (4 * k + 2) ++ tabByte s.tab (4 * k + 1) ++ tabByte s.tab (4 * k)
  else 0#32

/-- What a register reads as (40_control.md R87). -/
def regWord (r : RegSlot) (s : State) : Word :=
  match r with
  | .cmd => 0#32
  | .status => statusWord s
  | .cfg => cfgWord s
  | .idx => s.idx.setWidth 32
  | .src => s.src
  | .dst => s.dst
  | .img => s.img
  | .imga => s.imga
  | .imgcs => s.imgcs
  | .scr => s.scr
  | .len => s.len
  | .crc32Seed => s.crc32Seed
  | .crc32Expect => s.crc32Expect
  | .crc32Result => s.crc32Result
  | .crc16Result => s.crc16Result.setWidth 32
  | .serRetryMax => s.serRetryMax
  | .serAttempts => s.serAttempts
  | .cmdLast => s.cmdLast
  | .tab k => tabWord s k
  | .unmapped => 0#32

/-- A register write while idle (R88). -/
def writeIdle (r : RegSlot) (w : Word) (s : State) : State :=
  match r with
  | .cmd => issue w s
  | .status => writeStatus w s
  | .cfg => writeCfg w s
  | .idx => { s with idx := w.setWidth 8 }
  | .src => { s with src := w }
  | .dst => { s with dst := w }
  | .img => { s with img := w }
  | .imga => if s.ready then s else { s with imga := w }
  | .imgcs => if s.ready then s else { s with imgcs := w }
  | .scr => { s with scr := w }
  | .len => { s with len := w }
  | .crc32Seed => { s with crc32Seed := w }
  | .crc32Expect => { s with crc32Expect := w }
  | .crc32Result => s
  | .crc16Result => s
  | .serRetryMax => { s with serRetryMax := w }
  | .serAttempts => s
  | .cmdLast => s
  | .tab _ => s
  | .unmapped => s

/-- A register write while busy (R89): to STATUS as when idle; any other is dropped and sets OVR. -/
def writeBusy (r : RegSlot) (w : Word) (s : State) : State :=
  if r = .status then writeStatus w s else { s with ovr := true }

/-- A register write (R88, R89). -/
def writeReg (r : RegSlot) (w : Word) (s : State) : State :=
  if busy s then writeBusy r w s else writeIdle r w s

/-- An access the model refuses (R90). -/
def markRefused (s : State) : State := { s with marks := { s.marks with refused := true } }

/-- A value is returned to the host (30_encoding.md R74). -/
def answer (v : Answer) (s : State) : State := { s with answers := v :: s.answers }

/-! ### Memory accesses of the host -/

/-- A set as a rising list: add one element. -/
def insertSorted (a : Nat) : List Nat → List Nat
  | [] => [a]
  | x :: xs => if a < x then a :: x :: xs else if a = x then x :: xs else x :: insertSorted a xs

/-- `fault HAZARD(a)` (00_scope.md R19, 10_state.md R57). -/
def markHazard (a : Nat) (s : State) : State :=
  { s with marks := { s.marks with faults := insertSorted a s.marks.faults } }

/-- A host write to this address is a hazard: it lies in a busy command's footprint (70 R164), or in a stored image while
READY = 1 (R168). -/
def isHazard (s : State) (a : Nat) : Bool :=
  (busy s && ((pendingFootprint s).rd ++ (pendingFootprint s).wr).any fun r => inRegion r a)
    || (s.ready && (storedImages s).any fun r => inRegion r a)

/-- A host write of one byte: the hazard is recorded and the write performed (R164, R168). -/
def hostStore (a : Nat) (b : Byte) (s : State) : State :=
  storeBytes a [b] (if isHazard s a then markHazard a s else s)

/-- A host read races a busy command's writes (R165). -/
def isRacing (s : State) (a : Nat) : Bool := busy s && (pendingFootprint s).wr.any fun r => inRegion r a

/-- A host read of one byte: any value in a busy write footprint, the byte of `M` elsewhere (R165, log 20). -/
def hostLoad (a : Nat) (s : State) : State :=
  if isRacing s a then answer (.byte (Config.freeByte s.frees)) { s with frees := s.frees + 1 }
  else answer (.byte (Memory.read s.mem a)) s

/-- One turn of the host's polling loop (30_encoding.md R85): read STATUS; while DONE is 0, let the engine move and poll again (log 11). -/
def pollDone (s : State) : State :=
  let t := answer (.word (statusWord s)) s
  if s.done then t else { t with agenda := .engine :: .host .waitDone :: t.agenda }

/-- One turn of the host. -/
def hostTurn (op : HostOp) (s : State) : State :=
  match op with
  | .regRead off width => if portAccepts off width then answer (.word (regWord (slotAt off) s)) s else markRefused s
  | .regWrite off width w => if portAccepts off width then writeReg (slotAt off) w s else markRefused s
  | .memRead a => hostLoad a.toNat s
  | .memWrite a b => hostStore a.toNat b s
  | .waitDone => pollDone s

/-! ### Reset -/

/-- The part of a region that exists (20_memory.md R58). -/
def clip (r : Region) : Region := ⟨r.base, min r.len (Config.addrTop - r.base)⟩

/-- Every byte of the regions takes any value (70 R158): free bytes numbered from `k`. -/
def scramble (m : Memory) (k : Nat) : List Region → Memory
  | [] => m
  | r :: rs => scramble (Memory.write m r.base (freeBytes k (clip r).len)) (k + (clip r).len) rs

/-- How many bytes `scramble` takes. -/
def scrambleCount (rs : List Region) : Nat := (rs.map fun r => (clip r).len).sum

/-- The write footprint that a reset abandons (R158); none when idle. -/
def abandoned (s : State) : List Region := if busy s then (pendingFootprint s).wr else []

/-- The draws that an abandoned command may have taken from the source besides those of its past turns (R158). No count of draws shows
them (log 15). -/
def abandonedDraws (s : State) : Nat := if busy s then Config.freeCount s.frees else 0

/-- A reset turn (R157 to R160): every register takes its reset value, `T` and `PEND` any value (log 6), the write
footprint of an abandoned command any value (log 14); the rest of `M` and the marks stay. -/
def resetTurn (s : State) : State :=
  let k := s.frees
  let n := abandonedDraws s
  { State.reset with
    tab := vecOf 256 fun i => Config.freeByte (k + i)
    pend := Config.freeByte (k + 256) ++ Config.freeByte (k + 257) ++ Config.freeByte (k + 258) ++ Config.freeByte (k + 259)
    marks := s.marks
    mem := scramble s.mem (k + 260) (abandoned s)
    supply := s.supply.drop n
    drawCount := s.drawCount
    drawPos := s.drawPos + n
    frees := k + 260 + scrambleCount (abandoned s)
    params := s.params
    agenda := s.agenda
    answers := s.answers }

/-! ### Host statements (30_encoding.md R84, R85), as turns -/

/-- `wr off, w`. -/
def wr (off : Nat) (w : Word) : Turn := .host (.regWrite off 32 w)

/-- `rd off`. -/
def rd (off : Nat) : Turn := .host (.regRead off 32)

/-- `mw a, b0 b1 ...`, in ascending order. DESIGN CHOICE: a byte past address 2^32 - 1, of which the spec says nothing, goes to the address
modulo 2^32 (log 25). -/
def mw (a : Nat) : Bytes → List Turn
  | [] => []
  | b :: X => .host (.memWrite (BitVec.ofNat 32 a) b) :: mw (a + 1) X

/-- `mr a, n`, in ascending order. DESIGN CHOICE: a byte past address 2^32 - 1, of which the spec says nothing, comes from the address
modulo 2^32 (log 25). -/
def mr (a n : Nat) : List Turn := (List.range n).map fun i => .host (.memRead (BitVec.ofNat 32 (a + i)))

/-- `cmd C`. -/
def cmd (i : Instr) : Turn := wr 0x000 (encode i)

/-- `wait`. -/
def wait : Turn := .host .waitDone

/-- `ack`. -/
def ack : Turn := wr 0x004 0x00000102#32

/-- `run C`. -/
def run (i : Instr) : List Turn := [cmd i, wait]

end Sys2Proof.Machine
end

