-- ==== Sys2Proof/Machine/Engine.lean ====
section
/-! DEFINITION. The turns of the four agents (00_scope.md R6, 40_control.md R93, 70_reset_and_hazards.md R171). -/

namespace Sys2Proof.Machine

/-- One turn of the engine (R93): the first step of the pending command, or one attempt of SERENC. While idle it has no step, and its
turn changes nothing (log 8). -/
def engineTurn (s : State) : Host.Outcome State Fault Refusal :=
  match s.phase with
  | .idle => .next s
  | .pending =>
    match decode s.pend with
    | some i => exec i s
    | none => execIllegal s
  | .serloop w => attemptSerenc w s

/-- One turn of one agent. -/
def takeTurn (t : Turn) (s : State) : Host.Outcome State Fault Refusal :=
  match t with
  | .host op => .next (hostTurn op s)
  | .engine => engineTurn s
  | .reset => .next (resetTurn s)

/-- The turn that the agenda gives next; the engine's when it is used up (R171, log 7). -/
def nextTurn (s : State) : Turn :=
  match s.agenda with
  | [] => .engine
  | t :: _ => t

/-- The next turn is taken off the agenda. -/
def popTurn (s : State) : State := { s with agenda := s.agenda.tail }

/-- The table word of `nbits` bits is the pending command, and the engine moves next (log 17). -/
def placeCommand (s : State) (nbits w : Nat) : State :=
  let t := issue (BitVec.ofNat 32 (w % 2 ^ nbits)) s
  { t with agenda := .engine :: t.agenda }

end Sys2Proof.Machine
end

