-- ==== Sys2Proof/Machine/Step.lean ====
section
/-! DEFINITION. One step: the next turn of the agenda. The BTE fetches no instruction (10_state.md R23): a command word comes from `PEND`. -/

namespace Sys2Proof.Machine

/-- One step of the machine: one turn of one agent. -/
def step (s : State) : Host.Outcome State Fault Refusal :=
  takeTurn (nextTurn s) (popTurn s)

/-- The state in which the next step runs the command whose table word is `w` (log 17). -/
def State.withFetchWord (s : State) (nbits w : Nat) : State := placeCommand s nbits w

end Sys2Proof.Machine
end

