-- ==== Sys2Proof/Safety.lean ====
section
/-! DEFINITION. What claims say of the machine, address by address: when a command runs (40_control.md R94, 20_memory.md R60, R62), the
invariant that every step keeps, and the end and the observation of a run (70_reset_and_hazards.md R172). -/

namespace Sys2Proof.Machine

/-! ### Footprints, address by address -/

/-- Address `a` is in the read footprint of the command (20_memory.md R59). -/
def Reads (i : Instr) (s : State) (a : Nat) : Prop := ∃ r ∈ (footprint i s).rd, inRegion r a = true

/-- Address `a` is in the write footprint of the command (R59). -/
def Writes (i : Instr) (s : State) (a : Nat) : Prop := ∃ r ∈ (footprint i s).wr, inRegion r a = true

/-- Address `a` is in `RF ∪ WF`. -/
def Touches (i : Instr) (s : State) (a : Nat) : Prop := Reads i s a ∨ Writes i s a

/-- Address `a` lies in a stored image (20_memory.md R62, 70 R168). -/
def InStoredImage (s : State) (a : Nat) : Prop := ∃ r ∈ storedImages s, inRegion r a = true

/-- Address `a` is in the read footprint of the command in `PEND`. -/
def PendingReads (s : State) (a : Nat) : Prop := ∃ i, decode s.pend = some i ∧ Reads i s a

/-- Address `a` is in the write footprint of the command in `PEND`. -/
def PendingWrites (s : State) (a : Nat) : Prop := ∃ i, decode s.pend = some i ∧ Writes i s a

/-! ### The checks of R94, address by address -/

/-- Check 2 passes. -/
def Loaded (i : Instr) (s : State) : Prop :=
  ((∃ k, i = .encimg k) ∨ ∃ v k, i = .getenc v k) → s.ready = true

/-- Check 3 passes. -/
def Tabled (i : Instr) (s : State) : Prop :=
  ((∃ adv, i = .decblk adv) ∨ ∃ adv, i = .encblk adv) → s.tvalid = true

/-- Check 4 passes (20_memory.md R60). -/
def Admitted (i : Instr) (s : State) : Prop :=
  ∀ a, Touches i s a → a < Config.addrTop ∧ admitted s.params a = true

/-- Check 5 passes (20_memory.md R62). -/
structure Separate (i : Instr) (s : State) : Prop where
  /-- the write footprint does not meet the read footprint -/
  apart : ∀ a, Writes i s a → ¬ Reads i s a
  /-- for a cross-keying GETENC, the scratch and the output do not meet -/
  scratch : ∀ v k, i = .getenc v k → v ≠ k → ∀ a,
    ¬ ((s.scr.toNat ≤ a ∧ a < s.scr.toNat + Config.plainSize) ∧ (s.dst.toNat ≤ a ∧ a < s.dst.toNat + Config.encSize))
  /-- while READY = 1, the write footprint does not meet a stored image -/
  stored : s.ready = true → ∀ a, Writes i s a → ¬ InStoredImage s a

/-- All of checks 2 to 5 pass: the command performs its rule (40_control.md R93, R94). -/
structure Clear (i : Instr) (s : State) : Prop where
  loaded : Loaded i s
  tabled : Tabled i s
  admitted : Admitted i s
  separate : Separate i s

/-- The first step of the command accesses address `a`, once its checks pass: SERENC writes its output there on the skip path alone
(45_serial_record.md R134). -/
def Accesses (i : Instr) (s : State) (a : Nat) : Prop :=
  Reads i s a ∨ (Writes i s a ∧ (i = .serenc → skips s = true))

/-- The platform keeps the promise of admission for this first step: it refuses no access that the step makes (20_memory.md R60). -/
def Honest (i : Instr) (s : State) : Prop := ∀ a, Accesses i s a → ∀ h ∈ s.params.refusing, inRegion h a = false

/-! ### Whose turn it is -/

/-- The engine has the next turn (70_reset_and_hazards.md R171). -/
def EngineMoves (s : State) : Prop := s.agenda = [] ∨ ∃ rest, s.agenda = .engine :: rest

/-- The next step is the first engine step of this command (40_control.md R93). -/
def Starts (i : Instr) (s : State) : Prop := EngineMoves s ∧ s.phase = .pending ∧ decode s.pend = some i

/-- The next step is a host write to the register port at this offset. -/
def HostWrites (off : Nat) (w : Word) (s : State) : Prop := ∃ rest, s.agenda = .host (.regWrite off 32 w) :: rest

/-- The next step is a reset. -/
def Resets (s : State) : Prop := ∃ rest, s.agenda = .reset :: rest

/-- The commands that load `T` (10_state.md R53). -/
def LoadsTable : Instr → Prop
  | .nop => False
  | .ldtab => True
  | .decblk _ => False
  | .encblk _ => False
  | .decimg => True
  | .encimg _ => True
  | .getenc v k => v ≠ k
  | .crc32v => False
  | .keychk => False
  | .serdec => False
  | .serenc => False

/-- The codes a command can complete with (60_exceptions.md R139). -/
def allowedCodes : Instr → List (BitVec 4)
  | .nop => [0#4]
  | .ldtab => [0#4, 5#4]
  | .decblk _ => [0#4, 4#4, 5#4, 6#4]
  | .encblk _ => [0#4, 4#4, 5#4, 6#4]
  | .decimg => [0#4, 5#4, 6#4]
  | .encimg _ => [0#4, 3#4, 5#4, 6#4]
  | .getenc _ _ => [0#4, 3#4, 5#4, 6#4]
  | .crc32v => [0#4, 2#4, 5#4]
  | .keychk => [0#4, 5#4]
  | .serdec => [0#4, 5#4, 6#4]
  | .serenc => [0#4, 5#4, 6#4, 7#4]

/-- A byte sequence as one big-endian number, byte 0 most significant (42_block_transform.md R106). -/
def valueBE (X : Bytes) : Nat := X.foldl (fun v b => 256 * v + b.toNat) 0

/-! ### The invariant -/

/-- What every step keeps. -/
structure BteInv (s : State) : Prop where
  /-- memory is in its canonical form -/
  memory : Memory.wf s.mem
  /-- the error code is one of 0..7 (60_exceptions.md R138) -/
  code : s.errcode.toNat ≤ 7
  /-- the set of hazards is in its canonical form -/
  hazards : s.marks.faults.Pairwise (· < ·)
  /-- a busy engine has not completed (10_state.md R26, R27) -/
  busy_not_done : busy s = true → s.done = false
  /-- RECOK = 1 says that the last CRC-16 was zero (10_state.md R32, R47) -/
  recok_zero : s.recok = true → s.crc16Result = 0#16
  /-- in SERLOOP, the pending command is a SERENC whose checks pass (40_control.md R93, R89) -/
  loop_command : ∀ w, s.phase = .serloop w → decode s.pend = some .serenc ∧ Clear .serenc s
  /-- in SERLOOP, the budget is not yet used up (45_serial_record.md R135) -/
  loop_budget : ∀ w, s.phase = .serloop w → s.serRetryMax ≠ 0#32 → w.n.toNat < s.serRetryMax.toNat

/-! ### The end of a run (70_reset_and_hazards.md R172) -/

/-- A final state. -/
structure Final (s : State) : Prop where
  /-- the host has executed its last statement: no turn of the agenda is the host's -/
  finished : ∀ op, Turn.host op ∉ s.agenda
  idle : s.phase = .idle
  unmarked : s.marks.faults = []
  unrefused : s.marks.refused = false

/-- The observation of a state: `M`, every register as the host would read it, the number of draws consumed. -/
structure Observation where
  mem   : Memory
  regs  : List Word
  draws : Nat
  deriving DecidableEq, Repr

/-- The offsets of the register port (30_encoding.md R74, R75). -/
def offsets : List Nat := (List.range 128).map fun k => 4 * k

/-- What R172 observes. -/
def observe (s : State) : Observation where
  mem   := s.mem
  regs  := offsets.map fun off => regWord (slotAt off) s
  draws := s.drawCount

/-! ### States that differ only in what cannot be observed (70_reset_and_hazards.md R160) -/

/-- The two states agree in everything but `T` while TVALID = 0 and `PEND` while idle. -/
structure SameButUnobservable (s t : State) : Prop where
  rest : t = { s with tab := t.tab, pend := t.pend }
  tab  : s.tvalid = true → t.tab = s.tab
  pend : s.phase ≠ .idle → t.pend = s.pend

/-- Outcomes that agree in the same sense. -/
def SameOutcome : Host.Outcome State Fault Refusal → Host.Outcome State Fault Refusal → Prop
  | .next s, .next t => SameButUnobservable s t
  | .fault e, .fault f => e = f
  | .refused e, .refused f => e = f
  | _, _ => False

end Sys2Proof.Machine
end

