-- ==== Sys2Proof/Certificates/Slice0/Obligations.lean ====
section
/-! DEFINITION. The statements for the provers. Each says which rule of the spec it formalises; where it rests on a choice of the model, its
docstring names the log entry. -/

open Sys2Proof Sys2Proof.Machine

/-! ### Encoding -/

/-- The 17 legal command words of 30_encoding.md R86 (which the spec marks as derived from R77 to R79) decode to their commands. -/
def Obligations.LegalCommandWordsDecode : Prop :=
  decode 0x00000000#32 = some .nop ∧ decode 0x00000001#32 = some .ldtab ∧
  decode 0x00000002#32 = some (.decblk false) ∧ decode 0x00000102#32 = some (.decblk true) ∧
  decode 0x00000003#32 = some (.encblk false) ∧ decode 0x00000103#32 = some (.encblk true) ∧
  decode 0x00000004#32 = some .decimg ∧
  decode 0x00000005#32 = some (.encimg .a) ∧ decode 0x00000405#32 = some (.encimg .cs) ∧
  decode 0x00000006#32 = some (.getenc .a .a) ∧ decode 0x00000206#32 = some (.getenc .cs .a) ∧
  decode 0x00000406#32 = some (.getenc .a .cs) ∧ decode 0x00000606#32 = some (.getenc .cs .cs) ∧
  decode 0x00000007#32 = some .crc32v ∧ decode 0x00000008#32 = some .keychk ∧
  decode 0x00000009#32 = some .serdec ∧ decode 0x0000000A#32 = some .serenc

/-- Decoding an encoded command gives it back, and a word that decodes is the encoding of what it decodes to: the legal words
are exactly those of 30_encoding.md R86. -/
def Obligations.DecodeAndEncodeAgree : Prop :=
  (∀ i, decode (encode i) = some i) ∧ ∀ w i, decode w = some i → encode i = w

/-- 30_encoding.md R79: for each opcode the word is legal exactly when (word & mask) = match; the variant bits encode 0 = A, 1 = CS. -/
def Obligations.MatchAndMaskDecideTheCommand : Prop :=
  ∀ w : Word,
    (decode w = some .nop ↔ w &&& 0xFFFFFFFF#32 = 0x00000000#32) ∧
    (decode w = some .ldtab ↔ w &&& 0xFFFFFFFF#32 = 0x00000001#32) ∧
    (∀ adv, decode w = some (.decblk adv) ↔ w &&& 0xFFFFFEFF#32 = 0x00000002#32 ∧ adv = w.getLsbD 8) ∧
    (∀ adv, decode w = some (.encblk adv) ↔ w &&& 0xFFFFFEFF#32 = 0x00000003#32 ∧ adv = w.getLsbD 8) ∧
    (decode w = some .decimg ↔ w &&& 0xFFFFFFFF#32 = 0x00000004#32) ∧
    (∀ k, decode w = some (.encimg k) ↔
      w &&& 0xFFFFFBFF#32 = 0x00000005#32 ∧ k = if w.getLsbD 10 then .cs else .a) ∧
    (∀ v k, decode w = some (.getenc v k) ↔ w &&& 0xFFFFF9FF#32 = 0x00000006#32 ∧
      (v = if w.getLsbD 9 then .cs else .a) ∧ k = if w.getLsbD 10 then .cs else .a) ∧
    (decode w = some .crc32v ↔ w &&& 0xFFFFFFFF#32 = 0x00000007#32) ∧
    (decode w = some .keychk ↔ w &&& 0xFFFFFFFF#32 = 0x00000008#32) ∧
    (decode w = some .serdec ↔ w &&& 0xFFFFFFFF#32 = 0x00000009#32) ∧
    (decode w = some .serenc ↔ w &&& 0xFFFFFFFF#32 = 0x0000000A#32)

/-- The three cases of 30_encoding.md R80: a word is illegal exactly when its OP is reserved, an RSV bit is set, or a field
bit is set that the opcode does not use. -/
def Obligations.IllegalWordsAreTheThreeCases : Prop :=
  ∀ w : Word, decode w = none ↔
    0x0B ≤ (w.extractLsb' 0 8).toNat ∨ w.extractLsb' 11 21 ≠ 0#21 ∨
    (w.getLsbD 8 = true ∧ w.extractLsb' 0 8 ≠ 0x02#8 ∧ w.extractLsb' 0 8 ≠ 0x03#8) ∨
    (w.getLsbD 9 = true ∧ w.extractLsb' 0 8 ≠ 0x06#8) ∨
    (w.getLsbD 10 = true ∧ w.extractLsb' 0 8 ≠ 0x05#8 ∧ w.extractLsb' 0 8 ≠ 0x06#8)

/-! ### Steps of the engine -/

/-- 40_control.md R93: the engine's turn is the first step of the pending command, or one attempt of SERENC. The step takes
the turn off the agenda, and an idle engine's turn changes nothing else (logs 7 and 8). -/
def Obligations.StepRunsTheDecodedCommand : Prop :=
  ∀ s, EngineMoves s →
    (∀ i, s.phase = .pending → decode s.pend = some i → step s = exec i { s with agenda := s.agenda.tail }) ∧
    (∀ w, s.phase = .serloop w → step s = attemptSerenc w { s with agenda := s.agenda.tail }) ∧
    (s.phase = .idle → step s = .next { s with agenda := s.agenda.tail })

/-- A word placed as the next command is the command that the next step runs (log 17). -/
def Obligations.PlacedCommandRunsNext : Prop :=
  ∀ (s : State) (i : Instr), step (s.withFetchWord 32 (encode i).toNat) =
    exec i { s with pend := encode i, phase := .pending, done := false }

/-- 40_control.md R94 and R97: the checks are made in order, and the first that fails completes the command with its code and nothing else; for an
illegal word that is check 1. -/
def Obligations.ChecksFailInTheStatedOrder : Prop :=
  ∀ s, EngineMoves s → s.phase = .pending →
    (decode s.pend = none → step s = .next
      { s with agenda := s.agenda.tail, errcode := 1#4, done := true, cmdLast := s.pend, phase := .idle }) ∧
    ∀ i, decode s.pend = some i →
      (¬ Loaded i s → step s = .next
        { s with agenda := s.agenda.tail, errcode := 3#4, done := true, cmdLast := s.pend, phase := .idle }) ∧
      (Loaded i s → ¬ Tabled i s → step s = .next
        { s with agenda := s.agenda.tail, errcode := 4#4, done := true, cmdLast := s.pend, phase := .idle }) ∧
      (Loaded i s → Tabled i s → ¬ Admitted i s → step s = .next
        { s with agenda := s.agenda.tail, errcode := 5#4, done := true, cmdLast := s.pend, phase := .idle }) ∧
      (Loaded i s → Tabled i s → Admitted i s → ¬ Separate i s → step s = .next
        { s with agenda := s.agenda.tail, errcode := 6#4, done := true, cmdLast := s.pend, phase := .idle })

/-- 40_control.md R93 and 70_reset_and_hazards.md R171: every command other than SERENC completes in its first step. -/
def Obligations.EveryOtherCommandCompletesAtOnce : Prop :=
  ∀ s i, Starts i s → i ≠ .serenc → Honest i s →
    ∃ t, step s = .next t ∧ t.phase = .idle ∧ t.done = true ∧ t.cmdLast = s.pend

/-- 20_memory.md R60 and 60_exceptions.md R155: the engine is stuck exactly when the platform refuses an access that it makes after the checks
have passed: one of a command's first step, where SERENC accesses DST on the skip path alone (45_serial_record.md R134), or one of the
output of an accepted attempt. Then the command does not complete, and every other agent goes on. That the turn of a stuck engine is a
step that changes nothing is the model's choice (log 10). -/
def Obligations.OnlyABrokenPromiseStops : Prop :=
  (∀ i s, s.phase = .pending → (exec i s = .next s ↔ Clear i s ∧ ¬ Honest i s)) ∧
  (∀ w s, s.phase = .serloop w → (attemptSerenc w s = .next s ↔ (attemptCrc w s).toNat < 0x2000 ∧
    ∃ j < 80, ∃ h ∈ s.params.refusing, inRegion h (s.dst.toNat + j) = true)) ∧
  ∀ s, ∃ t, step s = .next t

/-- The codes of 60_exceptions.md R139, a table that the spec marks as derived from R94 and the command rules: a command completes only with a code its row allows, and an attempt of SERENC only
with OK or RETRY_BUDGET. -/
def Obligations.ErrorCodesAreTheMatrix : Prop :=
  (∀ i s t, s.phase = .pending → exec i s = .next t → t.phase = .idle → t.errcode ∈ allowedCodes i) ∧
  (∀ w s t, s.phase = .serloop w → attemptSerenc w s = .next t → t.phase = .idle → t.errcode = 0#4 ∨ t.errcode = 7#4)

/-! ### Footprints -/

/-- The table of 20_memory.md R59, address by address. -/
def Obligations.FootprintsAreTheTable : Prop :=
  ∀ (s : State) (a : Nat),
    let within (b n : Nat) : Prop := b ≤ a ∧ a < b + n
    let windows (b : Nat) : Prop := ∃ k < 16, ∃ j < 16, a = b + 0x1EEDF + 320 * k + j
    let serialKey (b : Nat) : Prop := ∃ i < 80, a = b + s.params.serTabOff.val + 10 + i
    let image (v : Variant) : Nat := (if v = .a then s.imga else s.imgcs).toNat
    (¬ Reads .nop s a ∧ ¬ Writes .nop s a) ∧
    ((Reads .crc32v s a ↔ within s.src.toNat s.len.toNat) ∧ ¬ Writes .crc32v s a) ∧
    ((Reads .keychk s a ↔ within s.src.toNat 80) ∧ ¬ Writes .keychk s a) ∧
    (∀ adv, (Reads (.decblk adv) s a ↔ within s.src.toNat 80) ∧ (Writes (.decblk adv) s a ↔ within s.dst.toNat 64)) ∧
    (∀ adv, (Reads (.encblk adv) s a ↔ within s.src.toNat 64) ∧ (Writes (.encblk adv) s a ↔ within s.dst.toNat 80)) ∧
    ((Reads .ldtab s a ↔ windows s.img.toNat) ∧ ¬ Writes .ldtab s a) ∧
    ((Reads .decimg s a ↔ within s.src.toNat 0x25D00) ∧ (Writes .decimg s a ↔ within s.dst.toNat 0x1E400)) ∧
    (∀ k, (Reads (.encimg k) s a ↔ within s.src.toNat 0x1E400 ∨ windows (image k)) ∧
      (Writes (.encimg k) s a ↔ within s.dst.toNat 0x25D00)) ∧
    (∀ v, (Reads (.getenc v v) s a ↔ within (image v) 0x25D00) ∧ (Writes (.getenc v v) s a ↔ within s.dst.toNat 0x25D00)) ∧
    (∀ v k, v ≠ k → (Reads (.getenc v k) s a ↔ within (image v) 0x25D00 ∨ windows (image k)) ∧
      (Writes (.getenc v k) s a ↔ within s.scr.toNat 0x1E400 ∨ within s.dst.toNat 0x25D00)) ∧
    ((Reads .serdec s a ↔ within (s.img.toNat + 0x1FD00) 80 ∨ serialKey s.img.toNat) ∧
      (Writes .serdec s a ↔ within s.dst.toNat 80)) ∧
    ((Reads .serenc s a ↔ within s.src.toNat 80 ∨ serialKey s.img.toNat) ∧
      (Writes .serenc s a ↔ within s.dst.toNat 80)) ∧
    (decode s.pend = none → (pendingFootprint s).rd = [] ∧ (pendingFootprint s).wr = [])

/-! ### The commands: their results and their frames -/

/-- 40_control.md R96: NOP completes OK and does nothing else; the word it leaves in CMD_LAST is 0x00000000. -/
def Obligations.NopOnlyCompletes : Prop :=
  ∀ s, exec .nop s = .next { s with errcode := 0#4, done := true, cmdLast := s.pend, phase := .idle } ∧
    (decode s.pend = some .nop → s.pend = 0x00000000#32)

/-- The pseudocode of 41_checksum.md R102, for a command whose checks pass. -/
def Obligations.Crc32vReportsTheComparison : Prop :=
  ∀ s, Clear .crc32v s → Honest .crc32v s →
    let r := ~~~ crc32Update s.params.crc32Poly s.crc32Seed (Memory.bytes s.mem s.src.toNat s.len.toNat)
    (r = s.crc32Expect → exec .crc32v s = .next { s with
      crc32Result := r, crcok := true, errcode := 0#4, done := true, cmdLast := s.pend, phase := .idle }) ∧
    (r ≠ s.crc32Expect → exec .crc32v s = .next { s with
      crc32Result := r, crcok := false, errcode := 2#4, done := true, cmdLast := s.pend, phase := .idle }) ∧
    (s.len = 0#32 → r = ~~~ s.crc32Seed)

/-- The pseudocode of 41_checksum.md R103, for a command whose checks pass. -/
def Obligations.KeychkReportsTheRecordCrc : Prop :=
  ∀ s, Clear .keychk s → Honest .keychk s →
    let c := crc16 s.params.crc16Poly s.params.crc16Init (Memory.bytes s.mem s.src.toNat 80)
    exec .keychk s = .next { s with
      crc16Result := c, recok := decide (c = 0#16), errcode := 0#4, done := true, cmdLast := s.pend, phase := .idle }

/-- The pseudocode of 43_xor_table.md R115 and R117, for a command whose checks pass: all 256 bytes of `T` at once. -/
def Obligations.LdtabLoadsTheComplementedWindows : Prop :=
  ∀ s, Clear .ldtab s → Honest .ldtab s →
    ∃ T : Vector Byte 256, exec .ldtab s = .next { s with
        tab := T, tvalid := true, errcode := 0#4, done := true, cmdLast := s.pend, phase := .idle } ∧
      ∀ k < 16, ∀ j < 16, tabAt T (BitVec.ofNat 8 (16 * k + j)) =
        ~~~ Memory.read s.mem (s.img.toNat + 0x1EEDF + 320 * k + j)

/-- The pseudocode of 42_block_transform.md R113, for a command whose checks pass; every byte outside `[DST, 64)` keeps its value. -/
def Obligations.DecblkDecryptsOneBlock : Prop :=
  ∀ adv s, Clear (.decblk adv) s → Honest (.decblk adv) s →
    ∃ M : Memory, exec (.decblk adv) s = .next { s with
        mem := M, idx := (if adv then s.idx + 4#8 else s.idx)
        errcode := 0#4, done := true, cmdLast := s.pend, phase := .idle } ∧
      (∀ j < 64, Memory.read M (s.dst.toNat + j) =
        byteAt (decBlock (Memory.bytes s.mem s.src.toNat 80) s.tab s.idx) j) ∧
      ∀ a, (a < s.dst.toNat ∨ s.dst.toNat + 64 ≤ a) → Memory.read M a = Memory.read s.mem a

/-- The pseudocode of 42_block_transform.md R114, for a command whose checks pass: 16 draws are the padding, whatever their values;
every byte outside `[DST, 80)` keeps its value. -/
def Obligations.EncblkEncryptsOneBlock : Prop :=
  ∀ adv s, Clear (.encblk adv) s → Honest (.encblk adv) s →
    ∃ M : Memory, exec (.encblk adv) s = .next { s with
        mem := M, idx := (if adv then s.idx + 4#8 else s.idx)
        supply := s.supply.drop 16, drawPos := s.drawPos + 16, drawCount := s.drawCount + 16
        errcode := 0#4, done := true, cmdLast := s.pend, phase := .idle } ∧
      (∀ j < 80, Memory.read M (s.dst.toNat + j) =
        byteAt (encBlock (Memory.bytes s.mem s.src.toNat 64) (draws 16 s) s.tab s.idx) j) ∧
      ∀ a, (a < s.dst.toNat ∨ s.dst.toNat + 80 ≤ a) → Memory.read M a = Memory.read s.mem a

/-- The pseudocode of 44_firmware_codec.md R118 to R120 and R122, block by block, for a command whose checks pass. -/
def Obligations.DecimgDecryptsEveryBlock : Prop :=
  ∀ s, Clear .decimg s → Honest .decimg s →
    ∃ (M : Memory) (T : Vector Byte 256), exec .decimg s = .next { s with
        tab := T, tvalid := true, mem := M, errcode := 0#4, done := true, cmdLast := s.pend, phase := .idle } ∧
      (∀ k < 16, ∀ j < 16, tabAt T (BitVec.ofNat 8 (16 * k + j)) =
        ~~~ Memory.read s.mem (s.src.toNat + 0x1EEDF + 320 * k + j)) ∧
      (∀ n < 1936, ∀ j < 64, Memory.read M (s.dst.toNat + 64 * n + j) =
        byteAt (decBlock (Memory.bytes s.mem (s.src.toNat + 80 * n) 80) T (s.params.decInit + BitVec.ofNat 8 (4 * n))) j) ∧
      ∀ a, (a < s.dst.toNat ∨ s.dst.toNat + 0x1E400 ≤ a) → Memory.read M a = Memory.read s.mem a

/-- The pseudocode of 44_firmware_codec.md R121 and R123, block by block, for a command whose checks pass: 30976 draws, whatever
their values. -/
def Obligations.EncimgEncryptsEveryBlock : Prop :=
  ∀ key s, Clear (.encimg key) s → Honest (.encimg key) s →
    ∃ (M : Memory) (T : Vector Byte 256), exec (.encimg key) s = .next { s with
        tab := T, tvalid := true, mem := M
        supply := s.supply.drop 30976, drawPos := s.drawPos + 30976, drawCount := s.drawCount + 30976
        errcode := 0#4, done := true, cmdLast := s.pend, phase := .idle } ∧
      (∀ k < 16, ∀ j < 16, tabAt T (BitVec.ofNat 8 (16 * k + j)) =
        ~~~ Memory.read s.mem ((if key = .a then s.imga else s.imgcs).toNat + 0x1EEDF + 320 * k + j)) ∧
      (∀ n < 1936, ∀ j < 80, Memory.read M (s.dst.toNat + 80 * n + j) =
        byteAt (encBlock (Memory.bytes s.mem (s.src.toNat + 64 * n) 64) (slice (draws 30976 s) (16 * n) 16) T
          (s.params.encInit + BitVec.ofNat 8 (4 * n))) j) ∧
      ∀ a, (a < s.dst.toNat ∨ s.dst.toNat + 0x25D00 ≤ a) → Memory.read M a = Memory.read s.mem a

/-- The identity case of 44_firmware_codec.md R125: the stored image is copied, nothing is drawn, `T` stays. -/
def Obligations.GetencCopiesTheStoredImage : Prop :=
  ∀ v s, Clear (.getenc v v) s → Honest (.getenc v v) s →
    ∃ M : Memory, exec (.getenc v v) s = .next { s with
        mem := M, errcode := 0#4, done := true, cmdLast := s.pend, phase := .idle } ∧
      (∀ j < 0x25D00, Memory.read M (s.dst.toNat + j) =
        Memory.read s.mem ((if v = .a then s.imga else s.imgcs).toNat + j)) ∧
      ∀ a, (a < s.dst.toNat ∨ s.dst.toNat + 0x25D00 ≤ a) → Memory.read M a = Memory.read s.mem a

/-- Cross-keying, 44_firmware_codec.md R125, block by block: the plaintext stays in SCR, and what SCR holds is encrypted under the
key image's table. -/
def Obligations.GetencCrossKeysThroughTheScratch : Prop :=
  ∀ var key s, var ≠ key → Clear (.getenc var key) s → Honest (.getenc var key) s →
    ∃ (M : Memory) (V T : Vector Byte 256), exec (.getenc var key) s = .next { s with
        tab := T, tvalid := true, mem := M
        supply := s.supply.drop 30976, drawPos := s.drawPos + 30976, drawCount := s.drawCount + 30976
        errcode := 0#4, done := true, cmdLast := s.pend, phase := .idle } ∧
      (∀ k < 16, ∀ j < 16,
        tabAt V (BitVec.ofNat 8 (16 * k + j)) = ~~~ Memory.read s.mem (imgSel var s + 0x1EEDF + 320 * k + j) ∧
        tabAt T (BitVec.ofNat 8 (16 * k + j)) = ~~~ Memory.read s.mem (imgSel key s + 0x1EEDF + 320 * k + j)) ∧
      (∀ n < 1936, ∀ j < 64, Memory.read M (s.scr.toNat + 64 * n + j) =
        byteAt (decBlock (Memory.bytes s.mem (imgSel var s + 80 * n) 80) V
          (s.params.decInit + BitVec.ofNat 8 (4 * n))) j) ∧
      (∀ n < 1936, ∀ j < 80, Memory.read M (s.dst.toNat + 80 * n + j) =
        byteAt (encBlock (Memory.bytes M (s.scr.toNat + 64 * n) 64) (slice (draws 30976 s) (16 * n) 16) T
          (s.params.encInit + BitVec.ofNat 8 (4 * n))) j) ∧
      ∀ a, (a < s.scr.toNat ∨ s.scr.toNat + 0x1E400 ≤ a) → (a < s.dst.toNat ∨ s.dst.toNat + 0x25D00 ≤ a) →
        Memory.read M a = Memory.read s.mem a

/-- The pseudocode of 45_serial_record.md R129, R130 and R133, for a command whose checks pass. -/
def Obligations.SerdecDecryptsTheRecord : Prop :=
  ∀ s, Clear .serdec s → Honest .serdec s →
    ∃ M : Memory, exec .serdec s = .next { s with
        mem := M, errcode := 0#4, done := true, cmdLast := s.pend, phase := .idle } ∧
      (∀ j < 80, Memory.read M (s.dst.toNat + j) =
        byteAt (serDecrypt (Memory.bytes s.mem (s.img.toNat + 0x1FD00) 80)
          (Memory.bytes s.mem (s.img.toNat + s.params.serTabOff.val + 10) 80)) j) ∧
      ∀ a, (a < s.dst.toNat ∨ s.dst.toNat + 80 ≤ a) → Memory.read M a = Memory.read s.mem a

/-- The pseudocode of 45_serial_record.md R134, for a command whose checks pass and a platform that refuses no access of this step: the skip
path stores the encrypted record and completes; otherwise the record and the key are held and the phase is SERLOOP, with no access to DST. -/
def Obligations.SerencSkipsOrEntersTheLoop : Prop :=
  ∀ s, Clear .serenc s → Honest .serenc s →
    let B := Memory.bytes s.mem s.src.toNat 80
    let K := Memory.bytes s.mem (s.img.toNat + s.params.serTabOff.val + 10) 80
    (crc16 s.params.crc16Poly s.params.crc16Init B = 0#16 →
      ∃ M : Memory, exec .serenc s = .next { s with
          mem := M, serAttempts := 0#32, errcode := 0#4, done := true, cmdLast := s.pend, phase := .idle } ∧
        (∀ j < 80, Memory.read M (s.dst.toNat + j) = byteAt (serEncrypt B K) j) ∧
        ∀ a, (a < s.dst.toNat ∨ s.dst.toNat + 80 ≤ a) → Memory.read M a = Memory.read s.mem a) ∧
    (crc16 s.params.crc16Poly s.params.crc16Init B ≠ 0#16 →
      ∃ w : SerWork, exec .serenc s = .next { s with phase := .serloop w } ∧
        w.buf.toList = B ∧ w.key.toList = K ∧ w.n = 0#32 ∧ w.drawn = 0)

/-- The pseudocode of 45_serial_record.md R135 and R136: one attempt draws 46 bytes, whatever their values, and stores the sealed record,
gives up, or stays in the loop; where the platform refuses the output of an accepted record, the engine is stuck (20_memory.md R60, log 10).
The command's draws are counted when it completes (log 15). -/
def Obligations.SerencAttemptStoresStopsOrStays : Prop :=
  ∀ s w, EngineMoves s → s.phase = .serloop w →
    ∃ B : Bytes, B.length = 80 ∧
      (∀ i < 80, byteAt B i = if 32 ≤ i ∧ i < 78 then byteAt (draws 46 s) (i - 32) else byteAt w.buf.toList i) ∧
      let c := crc16 s.params.crc16Poly s.params.crc16Init (B.take 78)
      let n := if w.n = 0xFFFFFFFF#32 then 0xFFFFFFFF#32 else w.n + 1#32
      let spent := s.serRetryMax ≠ 0#32 ∧ s.serRetryMax.toNat ≤ n.toNat
      let keeps := ∀ j < 80, ∀ h ∈ s.params.refusing, inRegion h (s.dst.toNat + j) = false
      (c.toNat < 0x2000 → keeps →
        ∃ M : Memory, step s = .next { s with
            agenda := s.agenda.tail, supply := s.supply.drop 46, drawPos := s.drawPos + 46, drawCount := s.drawCount + (w.drawn + 46)
            mem := M, serAttempts := n, errcode := 0#4, done := true, cmdLast := s.pend, phase := .idle } ∧
          (∀ j < 80, Memory.read M (s.dst.toNat + j) =
            byteAt (serEncrypt (B.take 78 ++ [c.extractLsb' 0 8, c.extractLsb' 8 8]) w.key.toList) j) ∧
          ∀ a, (a < s.dst.toNat ∨ s.dst.toNat + 80 ≤ a) → Memory.read M a = Memory.read s.mem a) ∧
      (c.toNat < 0x2000 → ¬ keeps → step s = .next { s with agenda := s.agenda.tail }) ∧
      (0x2000 ≤ c.toNat → spent → step s = .next { s with
          agenda := s.agenda.tail, supply := s.supply.drop 46, drawPos := s.drawPos + 46, drawCount := s.drawCount + (w.drawn + 46)
          serAttempts := n, errcode := 7#4, done := true, cmdLast := s.pend, phase := .idle }) ∧
      (0x2000 ≤ c.toNat → ¬ spent → ∃ b : Vector Byte 80, b.toList = B ∧ step s = .next { s with
          agenda := s.agenda.tail, supply := s.supply.drop 46, drawPos := s.drawPos + 46
          phase := .serloop { buf := b, key := w.key, n := n, drawn := w.drawn + 46 } })

/-- Draws are consumed in order (00_scope.md R18): the bytes the source has in hand come first; beyond them nothing is known of a draw's value (log 9). -/
def Obligations.DrawsComeInOrder : Prop :=
  ∀ (n : Nat) (s : State) (R rest : List Byte), R.length = n → s.supply = R ++ rest →
    draws n s = R ∧ s.supply.drop n = rest

/-! ### The functions -/

/-- The residue property of 41_checksum.md R101, which the spec marks as derived from R100, for every polynomial and every initial value. -/
def Obligations.Crc16ResidueIsZero : Prop :=
  ∀ (poly init : Half) (X : Bytes),
    let c := crc16 poly init X
    crc16 poly init (X ++ [c.extractLsb' 0 8, c.extractLsb' 8 8]) = 0#16

/-- The check values of 41_checksum.md R104's reference instances, on the ASCII bytes "123456789". -/
def Obligations.ReferenceCrcsHaveTheirCheckValues : Prop :=
  let digits : Bytes := [0x31#8, 0x32#8, 0x33#8, 0x34#8, 0x35#8, 0x36#8, 0x37#8, 0x38#8, 0x39#8]
  crc32Value 0xEDB88320#32 0xFFFFFFFF#32 digits = 0xCBF43926#32 ∧ crc16 0xA001#16 0x0000#16 digits = 0xBB3D#16

/-- The corner case of 41_checksum.md R102: a CRC-32 whose polynomial has its x^0 term set (bit 31 of the reflected form; the top
term is implicit) changes when any single bit of the input is flipped. -/
def Obligations.Crc32DetectsEverySingleBitFlip : Prop :=
  ∀ (poly seed : Word) (X : Bytes) (k bit : Nat), poly.getLsbD 31 = true → k < X.length → bit < 8 →
    crc32Value poly seed (X.set k (byteAt X k ^^^ (1#8 <<< bit))) ≠ crc32Value poly seed X

/-- 42_block_transform.md R107: the swap loop exchanges byte `i` and byte `n - 1 - i` for `i = 0, 4, 8, ...` below `n div 2`, and leaves
every other byte; for 80 bytes these are the ten listed pairs; `mirror4` is an involution (the last two clauses the spec marks as derived). -/
def Obligations.MirrorSwapsTheListedPairs : Prop :=
  (∀ X : Bytes, (mirror4 X).length = X.length ∧ ∀ p < X.length,
    byteAt (mirror4 X) p =
      if (p % 4 = 0 ∧ p < X.length / 2) ∨ ((X.length - 1 - p) % 4 = 0 ∧ X.length - 1 - p < X.length / 2)
      then byteAt X (X.length - 1 - p) else byteAt X p) ∧
  (∀ X : Bytes, X.length = 80 → ∀ p < 80,
    byteAt (mirror4 X) p =
      if p ∈ [0, 4, 8, 12, 16, 20, 24, 28, 32, 36] ∨ p ∈ [79, 75, 71, 67, 63, 59, 55, 51, 47, 43]
      then byteAt X (79 - p) else byteAt X p) ∧
  ∀ X : Bytes, mirror4 (mirror4 X) = X

/-- 42_block_transform.md R106: `shr3` is the logical right shift by 3 of the whole sequence read as one big-endian bit stream. -/
def Obligations.RightShiftIsOneBitStream : Prop :=
  ∀ X : Bytes, 1 ≤ X.length → (shr3 X).length = X.length ∧ valueBE (shr3 X) = valueBE X >>> 3

/-- 42_block_transform.md R108: `shl3` is the logical left shift by 3 of the big-endian bit stream; each shift undoes the other but for the
three bits that it loses (which the spec marks as derived). -/
def Obligations.LeftShiftIsOneBitStream : Prop :=
  ∀ X : Bytes, 1 ≤ X.length →
    (shl3 X).length = X.length ∧ valueBE (shl3 X) = (valueBE X <<< 3) % 256 ^ X.length ∧
    shr3 (shl3 X) = X.set 0 (byteAt X 0 &&& 0x1F#8) ∧
    shl3 (shr3 X) = X.set (X.length - 1) (byteAt X (X.length - 1) &&& 0xF8#8)

/-- The inverse law of 42_block_transform.md R111, which the spec marks as derived from R105 to R110, with the full 80-byte decrypt stream. -/
def Obligations.BlockTransformRoundTrips : Prop :=
  ∀ (P R : Bytes) (T : Vector Byte 256) (idx : Byte), P.length = 64 → R.length = 16 →
    decBlock (encBlock P R T idx) T idx = P ∧
    mirror4 (shr3 (xorRot (encBlock P R T idx) T idx)) = P ++ R.take 15 ++ [byteAt R 15 &&& 0x1F#8]

/-- 42_block_transform.md R109 and R110 byte by byte: byte `i` of an encrypted block is byte `i` of the shifted, mirrored block and padding
under the table byte at index + i (R105), and decryption undoes the table first. So an encrypted block ends in three zero bits under its
table, R112 (a), which the spec marks as derived. -/
def Obligations.EncryptedBlocksEndInZeroBits : Prop :=
  ∀ (T : Vector Byte 256) (idx : Byte),
    (∀ P R : Bytes, P.length = 64 → R.length = 16 →
      (∀ i < 80, byteAt (encBlock P R T idx) i ^^^ tabAt T (idx + BitVec.ofNat 8 i) = byteAt (shl3 (mirror4 (P ++ R))) i) ∧
      (byteAt (encBlock P R T idx) 79 ^^^ tabAt T (idx + 79#8)) &&& 0x07#8 = 0#8) ∧
    ∀ C X : Bytes, C.length = 80 → X.length = 80 → (∀ i < 80, byteAt X i = byteAt C i ^^^ tabAt T (idx + BitVec.ofNat 8 i)) →
      decBlock C T idx = (mirror4 (shr3 X)).take 64

/-- 43_xor_table.md R116 and 44_firmware_codec.md R124, both marked as derived by the spec: re-encrypting a decrypted block under the same table and index reproduces its
bytes 47..62, whatever the padding. -/
def Obligations.ReencryptionKeepsTheWindowBytes : Prop :=
  ∀ (C R : Bytes) (T : Vector Byte 256) (idx : Byte), C.length = 80 → R.length = 16 →
    ∀ j, 47 ≤ j → j ≤ 62 → byteAt (encBlock (decBlock C T idx) R T idx) j = byteAt C j

/-- From 44_firmware_codec.md R124, which the spec marks as derived, with R119's indices: a whole image encrypted and decrypted under one table and one initial index
returns the plaintext, whatever the draws. -/
def Obligations.ImageRoundTripsUnderOneTable : Prop :=
  ∀ (P R : Bytes) (T : Vector Byte 256) (init : Byte), P.length = 0x1E400 → R.length = 30976 →
    decImage (encImage P R T init) T init = P

/-- 45_serial_record.md R132 and R130 byte by byte: byte `i` of an encrypted record is byte `i` of the shifted, mirrored record under key byte
`i`, and decryption undoes the key first. So decrypting an encrypted record returns it with bits 7:5 of its last byte cleared, from R137,
which the spec marks as derived. -/
def Obligations.SerialRecordRoundTrips : Prop :=
  ∀ B K : Bytes, B.length = 80 → K.length = 80 →
    (∀ i < 80, byteAt (serEncrypt B K) i ^^^ byteAt K i = byteAt (shl3 (mirror4 B)) i) ∧
    (∀ X : Bytes, X.length = 80 → (∀ i < 80, byteAt X i = byteAt B i ^^^ byteAt K i) → serDecrypt B K = mirror4 (shr3 X)) ∧
    serDecrypt (serEncrypt B K) K = B.take 79 ++ [byteAt B 79 &&& 0x1F#8]

/-- 45_serial_record.md R137 (a) and (c), which the spec marks as derived: what an accepted attempt stores decrypts, under the key held, to a valid record with
the identifier and payload of the record in the buffer, and with a first-78 CRC below 0x2000. -/
def Obligations.AcceptedRecordDecryptsValid : Prop :=
  ∀ s t w, EngineMoves s → s.phase = .serloop w → step s = .next t → t.phase = .idle → t.errcode = 0#4 →
    let D := serDecrypt (Memory.bytes t.mem s.dst.toNat 80) w.key.toList
    crc16 s.params.crc16Poly s.params.crc16Init D = 0#16 ∧
    (crc16 s.params.crc16Poly s.params.crc16Init (D.take 78)).toNat < 0x2000 ∧
    D.take 32 = w.buf.toList.take 32

/-- 70_reset_and_hazards.md R171: SERENC with a budget of n completes in at most n + 1 engine steps, on a platform that keeps its
promise. -/
def Obligations.SerencEndsWithinItsBudget : Prop :=
  ∀ s : State, s.agenda = [] → s.phase = .pending → decode s.pend = some .serenc → s.serRetryMax ≠ 0#32 →
    s.params.refusing = [] →
    ∃ k ≤ s.serRetryMax.toNat + 1, ∃ t, Host.Core.run Sys2Proof.core k s = .next t ∧ t.phase = .idle ∧ t.done = true

/-! ### Host access -/

/-- 40_control.md R91: a write to CMD while idle issues the word, and nothing else changes. -/
def Obligations.IssueLatchesTheWord : Prop :=
  ∀ (s : State) (w : Word) (rest : List Turn), s.agenda = .host (.regWrite 0x000 32 w) :: rest → s.phase = .idle →
    ∃ t, step s = .next t ∧ t = { s with agenda := rest, pend := w, phase := .pending, done := false } ∧
      (statusWord t).getLsbD 0 = true

/-- 40_control.md R89: a register write while busy clears DONE and OVR by a write to STATUS, and is otherwise dropped with OVR. -/
def Obligations.WriteWhileBusyIsDropped : Prop :=
  ∀ (s : State) (off : Nat) (w : Word) (rest : List Turn), s.agenda = .host (.regWrite off 32 w) :: rest →
    s.phase ≠ .idle → off % 4 = 0 → off < 0x200 →
    (off = 0x004 → step s = .next
      { s with agenda := rest, done := (if w.getLsbD 1 then false else s.done), ovr := (if w.getLsbD 8 then false else s.ovr) }) ∧
    (off ≠ 0x004 → step s = .next { s with agenda := rest, ovr := true })

/-- 40_control.md R88: a register write while idle, offset by offset. -/
def Obligations.WriteWhileIdleFollowsTheMap : Prop :=
  ∀ (s : State) (off : Nat) (w : Word) (rest : List Turn), s.agenda = .host (.regWrite off 32 w) :: rest →
    s.phase = .idle → off % 4 = 0 → off < 0x200 →
    let s := { s with agenda := rest }
    let gives (t : State) : Prop := step { s with agenda := .host (.regWrite off 32 w) :: rest } = .next t
    (off = 0x000 → gives { s with pend := w, phase := .pending, done := false }) ∧
    (off = 0x004 → gives
      { s with done := (if w.getLsbD 1 then false else s.done), ovr := (if w.getLsbD 8 then false else s.ovr) }) ∧
    (off = 0x008 → gives { s with ready := (if w.getLsbD 0 then true else s.ready), ie := w.getLsbD 1 }) ∧
    (off = 0x00C → gives { s with idx := w.extractLsb' 0 8 }) ∧
    (off = 0x010 → gives { s with src := w }) ∧
    (off = 0x014 → gives { s with dst := w }) ∧
    (off = 0x018 → gives { s with img := w }) ∧
    (off = 0x01C → gives { s with imga := (if s.ready then s.imga else w) }) ∧
    (off = 0x020 → gives { s with imgcs := (if s.ready then s.imgcs else w) }) ∧
    (off = 0x024 → gives { s with scr := w }) ∧
    (off = 0x028 → gives { s with len := w }) ∧
    (off = 0x02C → gives { s with crc32Seed := w }) ∧
    (off = 0x030 → gives { s with crc32Expect := w }) ∧
    (off = 0x03C → gives { s with serRetryMax := w }) ∧
    (off = 0x034 ∨ off = 0x038 ∨ off = 0x040 ∨ off = 0x044 ∨ 0x048 ≤ off → gives s)

/-- 40_control.md R87: a register read returns the register's value, offset by offset, at any time, and changes nothing of the BTE. -/
def Obligations.ReadFollowsTheMap : Prop :=
  ∀ (s : State) (off : Nat) (rest : List Turn), s.agenda = .host (.regRead off 32) :: rest → off % 4 = 0 → off < 0x200 →
    let returns (v : Word) : Prop := step s = .next { s with agenda := rest, answers := .word v :: s.answers }
    (off = 0x000 → returns 0#32) ∧
    (off = 0x004 → returns (statusWord s)) ∧
    (off = 0x008 → returns (cfgWord s)) ∧
    (off = 0x00C → returns (0#24 ++ s.idx)) ∧
    (off = 0x010 → returns s.src) ∧
    (off = 0x014 → returns s.dst) ∧
    (off = 0x018 → returns s.img) ∧
    (off = 0x01C → returns s.imga) ∧
    (off = 0x020 → returns s.imgcs) ∧
    (off = 0x024 → returns s.scr) ∧
    (off = 0x028 → returns s.len) ∧
    (off = 0x02C → returns s.crc32Seed) ∧
    (off = 0x030 → returns s.crc32Expect) ∧
    (off = 0x034 → returns s.crc32Result) ∧
    (off = 0x038 → returns (0#16 ++ s.crc16Result)) ∧
    (off = 0x03C → returns s.serRetryMax) ∧
    (off = 0x040 → returns s.serAttempts) ∧
    (off = 0x044 → returns s.cmdLast) ∧
    (0x048 ≤ off → off < 0x100 → returns 0#32) ∧
    (∀ k, off = 0x100 + 4 * k → returns (if s.tvalid then
        (tabAt s.tab (BitVec.ofNat 8 (4 * k))).setWidth 32 ||| (tabAt s.tab (BitVec.ofNat 8 (4 * k + 1))).setWidth 32 <<< 8 |||
        (tabAt s.tab (BitVec.ofNat 8 (4 * k + 2))).setWidth 32 <<< 16 |||
        (tabAt s.tab (BitVec.ofNat 8 (4 * k + 3))).setWidth 32 <<< 24
      else 0#32))

/-- The fields of `STATUS` and `CFG` where 10_state.md R25 and R33 put them, with the reserved bits zero; BUSY is 1 exactly when PHASE is
not IDLE (R26). -/
def Obligations.StatusAndConfigWordsHaveTheirFields : Prop :=
  ∀ s : State,
    ((statusWord s).getLsbD 0 = true ↔ s.phase ≠ .idle) ∧ (statusWord s).getLsbD 1 = s.done ∧
    (statusWord s).extractLsb' 2 2 = 0#2 ∧ (statusWord s).extractLsb' 4 4 = s.errcode ∧
    (statusWord s).getLsbD 8 = s.ovr ∧ (statusWord s).getLsbD 9 = s.tvalid ∧ (statusWord s).getLsbD 10 = s.crcok ∧
    (statusWord s).getLsbD 11 = s.recok ∧ (statusWord s).extractLsb' 12 20 = 0#20 ∧
    (cfgWord s).getLsbD 0 = s.ready ∧ (cfgWord s).getLsbD 1 = s.ie ∧ (cfgWord s).extractLsb' 2 30 = 0#30

/-- 40_control.md R90: an access of another width, alignment or offset sets the refused mark and has no other effect. -/
def Obligations.RefusedAccessOnlyMarks : Prop :=
  ∀ (s : State) (off width : Nat) (w : Word) (rest : List Turn), width ≠ 32 ∨ off % 4 ≠ 0 ∨ 0x200 ≤ off →
    s.agenda = .host (.regRead off width) :: rest ∨ s.agenda = .host (.regWrite off width w) :: rest →
    step s = .next { s with agenda := rest, marks := { s.marks with refused := true } }

/-- 70_reset_and_hazards.md R164 and R168: a host write of one byte is performed (20_memory.md R58, R65), and is recorded as a hazard exactly
when it lies in the footprint of a busy command or, while READY = 1, in a stored image. That it is performed at every address, admitted or
not, is the model's inference (log 13, DEDUCED). -/
def Obligations.HostStoreRecordsItsHazard : Prop :=
  ∀ (s : State) (a : Word) (b : Byte) (rest : List Turn), s.agenda = .host (.memWrite a b) :: rest →
    ∃ t, step s = .next t ∧ t = { s with agenda := rest, mem := t.mem, marks := { s.marks with faults := t.marks.faults } } ∧
      Memory.read t.mem a.toNat = b ∧
      (∀ x, x ≠ a.toNat → Memory.read t.mem x = Memory.read s.mem x) ∧
      ∀ x, x ∈ t.marks.faults ↔ x ∈ s.marks.faults ∨ (x = a.toNat ∧
        ((s.phase ≠ .idle ∧ (PendingReads s x ∨ PendingWrites s x)) ∨ (s.ready = true ∧ InStoredImage s x)))

/-- 70_reset_and_hazards.md R165: a host read of one byte returns what `M` holds (20_memory.md R65, R68), but for an address in the write
footprint of a busy command, where it returns a value of which nothing is known (log 20); it changes neither memory nor marks. That it
returns the byte of `M` at every address, admitted or not, is the model's inference (log 13, DEDUCED). -/
def Obligations.HostLoadReturnsMemoryUnlessItRaces : Prop :=
  ∀ (s : State) (a : Word) (rest : List Turn), s.agenda = .host (.memRead a) :: rest →
    ∃ (b : Byte) (n : Nat), step s = .next { s with agenda := rest, answers := .byte b :: s.answers, frees := n } ∧
      (¬ (s.phase ≠ .idle ∧ PendingWrites s a.toNat) → b = Memory.read s.mem a.toNat)

/-- The polling loop of 30_encoding.md R85: it ends with a read of STATUS that has DONE = 1; until then the engine moves between two reads (log 11). -/
def Obligations.PollingEndsAtDone : Prop :=
  ∀ (s : State) (rest : List Turn), s.agenda = .host .waitDone :: rest →
    ∃ t, step s = .next t ∧
      t = { s with agenda := t.agenda, answers := .word (statusWord s) :: s.answers } ∧
      (s.done = true → t.agenda = rest) ∧ (s.done = false → t.agenda = .engine :: .host .waitDone :: rest)

/-! ### Reset -/

/-- 70_reset_and_hazards.md R157 and R159: a reset turn is taken at any time, after it every register reads its reset value, the engine is idle and
`irq` is 0; the marks stay. The same holds of the state the model starts in. -/
def Obligations.ResetGivesTheResetValues : Prop :=
  let atReset (t : State) : Prop := t.phase = .idle ∧ irq t = false ∧
    ∀ off, off % 4 = 0 → off < 0x200 → regWord (slotAt off) t = if off = 0x02C then 0xFFFFFFFF#32 else 0x00000000#32
  atReset State.reset ∧
  ∀ (s : State) (rest : List Turn), s.agenda = .reset :: rest →
    ∃ t, step s = .next t ∧ atReset t ∧ t.marks = s.marks ∧ t.agenda = rest

/-- 70_reset_and_hazards.md R158 and R160: reset changes no byte of memory outside the write footprint of the command it abandons. That the draws
of that command are never counted follows 93_implementation_defined.md I18 (log 15). -/
def Obligations.ResetLeavesOtherMemory : Prop :=
  ∀ (s t : State), Resets s → step s = .next t →
    (∀ a, ¬ (s.phase ≠ .idle ∧ PendingWrites s a) → Memory.read t.mem a = Memory.read s.mem a) ∧ t.drawCount = s.drawCount

/-! ### Whole-machine rules -/

/-- The state right after reset meets the invariant. -/
def Obligations.ResetMeetsTheInvariant : Prop := BteInv State.reset

/-- Every step keeps the invariant: canonical memory, a legal error code, a canonical set of hazards, no completion while busy, RECOK only
with a zero CRC-16, and in SERLOOP a pending SERENC whose checks pass and whose budget is not used up. -/
def Obligations.EveryStepKeepsTheInvariant : Prop :=
  ∀ s t, BteInv s → step s = .next t → BteInv t

/-- The engine writes no byte of memory outside the write footprint of the pending command (20_memory.md R59, 60_exceptions.md R142). -/
def Obligations.EngineWritesOnlyItsWriteFootprint : Prop :=
  ∀ s t, BteInv s → EngineMoves s → step s = .next t →
    ∀ a, ¬ PendingWrites s a → Memory.read t.mem a = Memory.read s.mem a

/-- While READY = 1, no command changes a byte of a stored image (20_memory.md R62, 10_state.md R34). -/
def Obligations.CommandsNeverWriteStoredImages : Prop :=
  ∀ s t, BteInv s → EngineMoves s → s.ready = true → step s = .next t →
    ∀ a, InStoredImage s a → Memory.read t.mem a = Memory.read s.mem a

/-- 10_state.md R34, R40 and R41: once set, READY stays until reset, and the image bases stay with it. -/
def Obligations.ReadyLocksTheImageBases : Prop :=
  ∀ s t, s.ready = true → ¬ Resets s → step s = .next t → t.ready = true ∧ t.imga = s.imga ∧ t.imgcs = s.imgcs

/-- 10_state.md R53 and 70_reset_and_hazards.md R167: besides reset, `T` is replaced only by LDTAB, DECIMG, ENCIMG and cross-keying GETENC, which
then set TVALID; and TVALID falls only at reset (R30). -/
def Obligations.TableIsReplacedOnlyByLoads : Prop :=
  ∀ s t, step s = .next t → ¬ Resets s →
    (t.tab ≠ s.tab → t.tvalid = true ∧ ∃ i, LoadsTable i ∧ Starts i s) ∧
    (t.tvalid ≠ s.tvalid → t.tvalid = true ∧ t.errcode = 0#4 ∧ ∃ i, LoadsTable i ∧ Starts i s)

/-- The flag summary of 10_state.md R52, flag by flag, and the one writer of each result register and of the index (R36, R46, R47, R49, R50): what a
step that changes one of them must be, when it is no reset. BUSY rises by an issue and falls by a completion (R26). -/
def Obligations.FlagsAndResultsHaveTheirWriters : Prop :=
  ∀ s t, step s = .next t → ¬ Resets s →
    ((statusWord t).getLsbD 0 ≠ (statusWord s).getLsbD 0 →
      (t.phase ≠ .idle ∧ s.phase = .idle ∧ ∃ w, HostWrites 0x000 w s) ∨ (t.phase = .idle ∧ s.phase ≠ .idle ∧ EngineMoves s)) ∧
    (t.tvalid ≠ s.tvalid → t.tvalid = true ∧ ∃ i, LoadsTable i ∧ Starts i s) ∧
    (t.crcok ≠ s.crcok → Starts .crc32v s) ∧
    (t.crc32Result ≠ s.crc32Result → Starts .crc32v s) ∧
    (t.recok ≠ s.recok → Starts .keychk s) ∧
    (t.crc16Result ≠ s.crc16Result → Starts .keychk s) ∧
    (t.serAttempts ≠ s.serAttempts → EngineMoves s ∧ (Starts .serenc s ∨ ∃ w, s.phase = .serloop w)) ∧
    (t.cmdLast ≠ s.cmdLast ∨ t.errcode ≠ s.errcode →
      EngineMoves s ∧ s.phase ≠ .idle ∧ t.phase = .idle ∧ t.cmdLast = s.pend) ∧
    (t.done ≠ s.done →
      (t.done = true ∧ EngineMoves s ∧ s.phase ≠ .idle ∧ t.phase = .idle) ∨
      (t.done = false ∧ ∃ w, HostWrites 0x000 w s ∨ (HostWrites 0x004 w s ∧ w.getLsbD 1 = true))) ∧
    (t.ovr ≠ s.ovr →
      (t.ovr = true ∧ s.phase ≠ .idle ∧ ∃ off w, off ≠ 0x004 ∧ HostWrites off w s) ∨
      (t.ovr = false ∧ ∃ w, HostWrites 0x004 w s ∧ w.getLsbD 8 = true)) ∧
    (t.ready ≠ s.ready ∨ t.ie ≠ s.ie → s.phase = .idle ∧ ∃ w, HostWrites 0x008 w s) ∧
    (t.idx ≠ s.idx → (s.phase = .idle ∧ ∃ w, HostWrites 0x00C w s) ∨
      (t.idx = s.idx + 4#8 ∧ t.errcode = 0#4 ∧ (Starts (.decblk true) s ∨ Starts (.encblk true) s)))

/-- 60_exceptions.md R146 and R147: `irq` is DONE and IE as the host reads them, and it rises only with a completion or with a write to CFG that
enables it. -/
def Obligations.InterruptFollowsDoneAndEnable : Prop :=
  (∀ s : State, irq s = ((statusWord s).getLsbD 1 && (cfgWord s).getLsbD 1)) ∧
  ∀ s t, step s = .next t → irq s = false → irq t = true →
    (EngineMoves s ∧ s.phase ≠ .idle ∧ t.phase = .idle) ∨ ∃ w, HostWrites 0x008 w s ∧ w.getLsbD 1 = true

/-- 10_state.md R57: no step clears a fault record or the refused mark, reset included. -/
def Obligations.MarksAreNeverCleared : Prop :=
  ∀ s t, step s = .next t →
    (∀ a ∈ s.marks.faults, a ∈ t.marks.faults) ∧ (s.marks.refused = true → t.marks.refused = true)

/-- 70_reset_and_hazards.md R160, which the spec marks as derived: `T` while TVALID = 0 and `PEND` while idle can never be observed. Two states that differ only there are
final together, have the same observation and the same answers, and their steps again differ only there. -/
def Obligations.UnspecifiedStateIsUnobservable : Prop :=
  ∀ s t, SameButUnobservable s t →
    (Final s ↔ Final t) ∧ observe s = observe t ∧ s.answers = t.answers ∧ irq s = irq t ∧ SameOutcome (step s) (step t)

/-- 20_memory.md R61: storing a sequence is storing its bytes one at a time, in ascending order. -/
def Obligations.StoringASequenceIsByteStores : Prop :=
  ∀ (m : Memory) (a : Nat) (b : Byte) (X : Bytes), Memory.wf m → a + X.length + 1 ≤ Config.addrTop →
    Memory.write m a (b :: X) = Memory.write (Memory.writeByte m a b) (a + 1) X
end

