-- ==== Sys2Proof/Laws/Bytes.lean ====
section
/-! SUPPORT. Laws of byte sequences and draws: their lengths and their bytes. -/

namespace Sys2Proof.Machine

@[simp] theorem length_seqOf (n : Nat) (f : Nat → Byte) : (seqOf n f).length = n := by simp [seqOf]

theorem byteAt_of_lt {X : Bytes} {i : Nat} (h : i < X.length) : byteAt X i = X[i] := by
  simp [byteAt, h]

theorem byteAt_of_le {X : Bytes} {i : Nat} (h : X.length ≤ i) : byteAt X i = 0#8 := by
  simp [byteAt, h]

theorem byteAt_seqOf (n : Nat) (f : Nat → Byte) (i : Nat) : byteAt (seqOf n f) i = if i < n then f i else 0#8 := by
  by_cases h : i < n <;> simp [byteAt, seqOf, h]

/-- Two sequences of one length with the same bytes are equal. -/
theorem bytes_ext {X Y : Bytes} (hl : X.length = Y.length) (h : ∀ i < X.length, byteAt X i = byteAt Y i) : X = Y := by
  apply List.ext_getElem hl
  intro i h₁ h₂
  simpa [byteAt_of_lt h₁, byteAt_of_lt h₂] using h i h₁

theorem seqOf_byteAt (X : Bytes) : seqOf X.length (byteAt X) = X :=
  bytes_ext (by simp) fun i h => by simp_all [byteAt_seqOf]

theorem byteAt_append (X Y : Bytes) (i : Nat) :
    byteAt (X ++ Y) i = if i < X.length then byteAt X i else byteAt Y (i - X.length) := by
  by_cases h : i < X.length
  · simp [byteAt, h, List.getElem?_append_left h]
  · simp [byteAt, h, List.getElem?_append_right (Nat.le_of_not_lt h)]

theorem byteAt_take (X : Bytes) (n i : Nat) : byteAt (X.take n) i = if i < n then byteAt X i else 0#8 := by
  by_cases h : i < n <;> simp [byteAt, h]

theorem byteAt_drop (X : Bytes) (n i : Nat) : byteAt (X.drop n) i = byteAt X (n + i) := by
  simp [byteAt]

theorem byteAt_slice (X : Bytes) (a n i : Nat) : byteAt (slice X a n) i = if i < n then byteAt X (a + i) else 0#8 := by
  simp [slice, byteAt_take, byteAt_drop]

theorem length_slice {X : Bytes} {a n : Nat} (h : a + n ≤ X.length) : (slice X a n).length = n := by
  simp [slice]
  omega

theorem getElem_vecOf (n : Nat) (f : Nat → Byte) (i : Nat) (h : i < n) : (vecOf n f)[i] = f i := by
  simp [vecOf]

theorem toList_vecOf (n : Nat) (f : Nat → Byte) : (vecOf n f).toList = seqOf n f := by
  simp [vecOf, seqOf]

theorem toList_record {X : Bytes} (h : X.length = 80) : (record X).toList = X := by
  rw [record, toList_vecOf, ← h, seqOf_byteAt]

/-! ### Draws -/

@[simp] theorem length_drawBytes (n : Nat) (bs : List Byte) (k : Nat) : (drawBytes n bs k).length = n := by
  induction n generalizing bs k with
  | zero => cases bs <;> simp [drawBytes]
  | succ n ih => cases bs <;> simp [drawBytes, ih]

@[simp] theorem length_draws (n : Nat) (s : State) : (draws n s).length = n := by simp [draws]

@[simp] theorem length_freeBytes (k n : Nat) : (freeBytes k n).length = n := by simp [freeBytes]

/-! ### The block primitives -/

@[simp] theorem length_xorRot (X : Bytes) (T : Vector Byte 256) (idx : Byte) : (xorRot X T idx).length = X.length := by
  simp [xorRot]

theorem byteAt_xorRot {X : Bytes} {T : Vector Byte 256} {idx : Byte} {i : Nat} (h : i < X.length) :
    byteAt (xorRot X T idx) i = byteAt X i ^^^ tabAt T (idx + BitVec.ofNat 8 i) := by
  simp [xorRot, byteAt_seqOf, h]

@[simp] theorem length_shr3 (X : Bytes) : (shr3 X).length = X.length := by simp [shr3]

theorem byteAt_shr3 {X : Bytes} {i : Nat} (h : i < X.length) :
    byteAt (shr3 X) i = if i = 0 then byteAt X 0 >>> 3 else (byteAt X i >>> 3) ||| (byteAt X (i - 1) <<< 5) := by
  simp [shr3, byteAt_seqOf, h]

@[simp] theorem length_shl3 (X : Bytes) : (shl3 X).length = X.length := by simp [shl3]

theorem byteAt_shl3 {X : Bytes} {i : Nat} (h : i < X.length) :
    byteAt (shl3 X) i =
      if i + 1 < X.length then (byteAt X i <<< 3) ||| (byteAt X (i + 1) >>> 5) else byteAt X i <<< 3 := by
  simp [shl3, byteAt_seqOf, h]

@[simp] theorem length_swapBytes (Y : Bytes) (i j : Nat) : (swapBytes Y i j).length = Y.length := by simp [swapBytes]

theorem byteAt_swapBytes {Y : Bytes} {i j : Nat} (hi : i < Y.length) (hj : j < Y.length) (p : Nat) :
    byteAt (swapBytes Y i j) p = if p = j then byteAt Y i else if p = i then byteAt Y j else byteAt Y p := by
  by_cases hp : p < Y.length
  · by_cases h1 : p = j <;> by_cases h2 : p = i <;> simp_all [swapBytes, byteAt, List.getElem_set]
    grind
  · have h1 : p ≠ j := by omega
    have h2 : p ≠ i := by omega
    simp [h1, h2, byteAt_of_le, Nat.le_of_not_lt hp]

@[simp] theorem length_mirrorFold (n : Nat) (is : List Nat) (X : Bytes) :
    (is.foldl (fun Y i => swapBytes Y i (n - 1 - i)) X).length = X.length := by
  induction is generalizing X with
  | nil => rfl
  | cons i is ih => simp [ih]

@[simp] theorem length_mirror4 (X : Bytes) : (mirror4 X).length = X.length := by simp [mirror4]

/-- The swap loop over distinct indices below the middle exchanges exactly the listed pairs. -/
theorem byteAt_mirrorFold {n : Nat} {is : List Nat} (hnd : is.Nodup) (hlt : ∀ i ∈ is, i < n / 2) {X : Bytes}
    (hX : X.length = n) {p : Nat} (hp : p < n) :
    byteAt (is.foldl (fun Y i => swapBytes Y i (n - 1 - i)) X) p =
      if p ∈ is ∨ n - 1 - p ∈ is then byteAt X (n - 1 - p) else byteAt X p := by
  induction is generalizing X with
  | nil => simp
  | cons i is ih =>
    have hi : i < n / 2 := hlt i (by simp)
    obtain ⟨hni, hnd'⟩ := List.nodup_cons.mp hnd
    have hni' : n - 1 - i ∉ is := fun h => by
      have := hlt _ (List.mem_cons_of_mem _ h)
      omega
    rw [List.foldl_cons, ih hnd' (fun j hj => hlt j (List.mem_cons_of_mem _ hj)) (by simp [hX]),
      byteAt_swapBytes (by omega) (by omega), byteAt_swapBytes (by omega) (by omega)]
    have e : n - 1 - (n - 1 - i) = i := by omega
    by_cases h1 : p = i
    · subst h1
      have : n - 1 - p ≠ p := by omega
      have : p ≠ n - 1 - p := by omega
      simp_all
    · by_cases h2 : p = n - 1 - i
      · subst h2
        simp_all
      · have h3 : n - 1 - p ≠ i := by omega
        have h4 : n - 1 - p ≠ n - 1 - i := by omega
        simp [h1, h2, h3, h4]

/-- Position `p` of a sequence of length `n` belongs to a swapped pair (42_block_transform.md R107). -/
def inMirrorPair (n p : Nat) : Bool := (p % 4 == 0 && p < n / 2) || ((n - 1 - p) % 4 == 0 && n - 1 - p < n / 2)

theorem mem_mirrorIndices (n p : Nat) : p ∈ mirrorIndices n ↔ p % 4 = 0 ∧ p < n / 2 := by
  simp [mirrorIndices, and_comm]

theorem nodup_mirrorIndices (n : Nat) : (mirrorIndices n).Nodup := List.nodup_range.filter _

/-- The closed form of the swap loop. -/
theorem byteAt_mirror4 {X : Bytes} {p : Nat} (hp : p < X.length) :
    byteAt (mirror4 X) p = if inMirrorPair X.length p then byteAt X (X.length - 1 - p) else byteAt X p := by
  rw [mirror4, byteAt_mirrorFold (nodup_mirrorIndices _) (fun i hi => ((mem_mirrorIndices _ _).mp hi).2) rfl hp]
  simp [mem_mirrorIndices, inMirrorPair]

@[simp] theorem length_encBlock (P R : Bytes) (T : Vector Byte 256) (idx : Byte) :
    (encBlock P R T idx).length = P.length + R.length := by simp [encBlock]

@[simp] theorem length_decStream (C : Bytes) (T : Vector Byte 256) (idx : Byte) : (decStream C T idx).length = C.length := by
  simp [decStream]

theorem length_decBlock {C : Bytes} (h : C.length = 80) (T : Vector Byte 256) (idx : Byte) :
    (decBlock C T idx).length = 64 := by simp [decBlock, h, Config.pblk]

end Sys2Proof.Machine
end

