-- ==== Sys2Proof/Laws/Memory.lean ====
section
/-! SUPPORT. Laws of regions and of the shared memory: what a read gives after a write, and that a write keeps the canonical form. -/

namespace Sys2Proof.Machine

/-! ### Regions -/

@[simp] theorem inRegion_iff (r : Region) (a : Nat) : inRegion r a = true ↔ r.base ≤ a ∧ a < r.base + r.len := by
  simp [inRegion]

theorem meets_iff (r q : Region) : meets r q = true ↔ ∃ a, inRegion r a = true ∧ inRegion q a = true := by
  simp only [meets, decide_eq_true_eq, inRegion_iff]
  constructor
  · intro h
    exact ⟨max r.base q.base, by omega⟩
  · rintro ⟨a, h⟩
    omega

theorem meetsAny_iff (rs qs : List Region) :
    meetsAny rs qs = true ↔ ∃ a, (∃ r ∈ rs, inRegion r a = true) ∧ ∃ q ∈ qs, inRegion q a = true := by
  simp only [meetsAny, List.any_eq_true, meets_iff]
  constructor
  · rintro ⟨r, hr, q, hq, a, h₁, h₂⟩
    exact ⟨a, ⟨r, hr, h₁⟩, q, hq, h₂⟩
  · rintro ⟨a, ⟨r, hr, h₁⟩, q, hq, h₂⟩
    exact ⟨r, hr, q, hq, a, h₁, h₂⟩

theorem admitted_iff (p : Params) (a : Nat) : admitted p a = true ↔ ∀ h ∈ p.holes, inRegion h a = false := by
  simp only [admitted, Bool.not_eq_true', List.any_eq_false, Bool.not_eq_true]

theorem regionAdmitted_iff (p : Params) (r : Region) :
    regionAdmitted p r = true ↔ ∀ a, inRegion r a = true → a < Config.addrTop ∧ admitted p a = true := by
  simp only [regionAdmitted, Bool.and_eq_true, Bool.or_eq_true, beq_iff_eq, decide_eq_true_eq, Bool.not_eq_true',
    List.any_eq_false, meets_iff, admitted_iff]
  constructor
  · rintro ⟨hb, hh⟩ a ha
    refine ⟨?_, fun h hm => ?_⟩
    · rw [inRegion_iff] at ha
      omega
    · by_contra hc
      exact hh h hm ⟨a, by simpa using hc, ha⟩
  · intro h
    refine ⟨?_, fun q hq => ?_⟩
    · by_contra hc
      have := (h (r.base + r.len - 1) (by rw [inRegion_iff]; omega)).1
      omega
    · rintro ⟨a, h₁, h₂⟩
      have := (h a h₂).2 q hq
      simp_all

theorem refuses_iff (p : Params) (rs : List Region) :
    refuses p rs = true ↔ ∃ a, (∃ h ∈ p.refusing, inRegion h a = true) ∧ ∃ r ∈ rs, inRegion r a = true := by
  have : refuses p rs = meetsAny p.refusing rs := rfl
  rw [this, meetsAny_iff]

namespace Memory

/-! ### Reads after writes -/

theorem read_of_mem_unique {m : Memory} {c : Host.Cell} (hw : m.Pairwise fun c d => c.1 < d.1) (hc : c ∈ m) :
    read m c.1 = c.2 := by
  induction m with
  | nil => simp at hc
  | cons d m ih =>
    obtain ⟨hd, hm⟩ := List.pairwise_cons.mp hw
    rcases List.mem_cons.mp hc with rfl | hc
    · simp [read]
    · have hlt := hd c hc
      have hne : (d.1 == c.1) = false := by simp; omega
      have := ih hm hc
      simp only [read, List.find?_cons, hne] at this ⊢
      exact this

theorem read_of_not_mem {m : Memory} {a : Nat} (h : ∀ c ∈ m, c.1 ≠ a) : read m a = unlisted := by
  have : m.find? (fun c => c.1 == a) = none := by simpa using h
  simp [read, this]

theorem read_append_left {m m' : Memory} {a : Nat} (h : ∀ c ∈ m', c.1 ≠ a) : read (m ++ m') a = read m a := by
  have : m'.find? (fun c => c.1 == a) = none := by simpa using h
  simp [read, List.find?_append, this]

theorem read_append_right {m m' : Memory} {a : Nat} (h : ∀ c ∈ m, c.1 ≠ a) : read (m ++ m') a = read m' a := by
  have : m.find? (fun c => c.1 == a) = none := by simpa using h
  simp [read, List.find?_append, this]

theorem read_filter {m : Memory} {p : Nat → Bool} {a : Nat} (h : p a = true) :
    read (m.filter fun c => p c.1) a = read m a := by
  induction m with
  | nil => rfl
  | cons c m ih =>
    by_cases hc : c.1 = a
    · subst hc
      simp [read, h]
    · have hb : (c.1 == a) = false := by simpa using hc
      by_cases hp : p c.1 = true <;> simp_all [read]

theorem mem_cells {a : Nat} {X : Bytes} {c : Host.Cell} (h : c ∈ cells a X) :
    a ≤ c.1 ∧ c.1 < a + X.length ∧ c.2 ≠ unlisted := by
  induction X generalizing a with
  | nil => simp [cells] at h
  | cons b X ih =>
    simp only [cells] at h
    split at h
    · obtain ⟨h₁, h₂, h₃⟩ := ih h
      exact ⟨by omega, by simp; omega, h₃⟩
    · rcases List.mem_cons.mp h with rfl | h
      · exact ⟨by simp, by simp, by assumption⟩
      · obtain ⟨h₁, h₂, h₃⟩ := ih h
        exact ⟨by omega, by simp; omega, h₃⟩

theorem read_cells {a : Nat} {X : Bytes} {i : Nat} (h : i < X.length) : read (cells a X) (a + i) = byteAt X i := by
  induction X generalizing a i with
  | nil => simp at h
  | cons b X ih =>
    cases i with
    | zero =>
      by_cases hb : b = unlisted
      · simp only [cells, hb, if_true]
        rw [read_of_not_mem]
        · simp [byteAt]
        · intro c hc
          have := (mem_cells hc).1
          omega
      · simp [cells, hb, read, byteAt]
    | succ i =>
      have h' : i < X.length := by simpa using h
      have e : a + (i + 1) = a + 1 + i := by omega
      have hs : byteAt (b :: X) (i + 1) = byteAt X i := by simp [byteAt]
      rw [hs, ← ih (a := a + 1) h', e]
      by_cases hb : b = unlisted
      · simp [cells, hb]
      · simp only [cells, hb, if_false]
        have hf : (a == a + 1 + i) = false := by simp; omega
        simp [read, hf]

/-- A byte of the stored sequence reads as stored. -/
theorem read_write_in {m : Memory} {a : Nat} {X : Bytes} {i : Nat} (h : i < X.length) :
    read (write m a X) (a + i) = byteAt X i := by
  rw [write, read_append_left, read_append_right, read_cells h]
  · intro c hc
    have := (List.mem_filter.mp hc).2
    simp at this
    omega
  · intro c hc
    have := (List.mem_filter.mp hc).2
    simp at this
    omega

/-- A write leaves every other byte as it was. -/
theorem read_write_out {m : Memory} {a b : Nat} {X : Bytes} (h : b < a ∨ a + X.length ≤ b) :
    read (write m a X) b = read m b := by
  rcases h with h | h
  · rw [write, read_append_left, read_append_left, read_filter (p := fun x => decide (x < a)) (by simpa using h)]
    · intro c hc
      have := (mem_cells hc).1
      omega
    · intro c hc
      have := (List.mem_filter.mp hc).2
      simp at this
      omega
  · rw [write, read_append_right, read_filter (p := fun x => decide (a + X.length ≤ x)) (by simpa using h)]
    · intro c hc
      rcases List.mem_append.mp hc with hc | hc
      · have := (List.mem_filter.mp hc).2
        simp at this
        omega
      · have := (mem_cells hc).2.1
        omega

/-- A read after a write, in one equation. -/
theorem read_write (m : Memory) (a : Nat) (X : Bytes) (b : Nat) :
    read (write m a X) b = if a ≤ b ∧ b < a + X.length then byteAt X (b - a) else read m b := by
  split
  · rename_i h
    have e : b = a + (b - a) := by omega
    rw [e, read_write_in (by omega)]
    congr 1
    omega
  · exact read_write_out (by omega)

/-! ### The canonical form -/

theorem pairwise_cells (a : Nat) (X : Bytes) : (cells a X).Pairwise fun c d => c.1 < d.1 := by
  induction X generalizing a with
  | nil => simp [cells]
  | cons b X ih =>
    simp only [cells]
    split
    · exact ih (a + 1)
    · refine List.pairwise_cons.mpr ⟨fun c hc => ?_, ih (a + 1)⟩
      have := (mem_cells hc).1
      simp only
      omega

/-- A write inside the address space keeps the canonical form. -/
theorem wf_write {m : Memory} (hm : wf m) {a : Nat} {X : Bytes} (h : X = [] ∨ a + X.length ≤ Config.addrTop) :
    wf (write m a X) := by
  obtain ⟨h₁, h₂, h₃⟩ := hm
  refine ⟨?_, ?_, ?_⟩
  · rw [write, List.append_assoc]
    refine List.pairwise_append.mpr ⟨h₁.filter _, List.pairwise_append.mpr ⟨pairwise_cells a X, h₁.filter _, ?_⟩, ?_⟩
    · intro c hc d hd
      have := (mem_cells hc).2.1
      have := (List.mem_filter.mp hd).2
      simp at this
      omega
    · intro c hc d hd
      have hc' := (List.mem_filter.mp hc).2
      simp at hc'
      rcases List.mem_append.mp hd with hd | hd
      · have := (mem_cells hd).1
        omega
      · have := (List.mem_filter.mp hd).2
        simp at this
        omega
  · intro c hc
    simp only [write, List.mem_append] at hc
    rcases hc with (hc | hc) | hc
    · exact h₂ c (List.mem_filter.mp hc).1
    · exact (mem_cells hc).2.2
    · exact h₂ c (List.mem_filter.mp hc).1
  · intro c hc
    simp only [write, List.mem_append] at hc
    rcases hc with (hc | hc) | hc
    · exact h₃ c (List.mem_filter.mp hc).1
    · have := (mem_cells hc).2.1
      rcases h with rfl | h
      · simp [cells] at hc
      · omega
    · exact h₃ c (List.mem_filter.mp hc).1

/-- Two canonical memories with the same bytes are the same data. -/
theorem wf_ext {m m' : Memory} (h : wf m) (h' : wf m') (he : ∀ a, read m a = read m' a) : m = m' := by
  have key : ∀ {p q : Memory}, wf p → wf q → (∀ a, read p a = read q a) → ∀ c ∈ p, c ∈ q := by
    intro p q hp hq e c hc
    have h₁ : read q c.1 = c.2 := by rw [← e, read_of_mem_unique hp.1 hc]
    by_contra hn
    by_cases hx : ∃ d ∈ q, d.1 = c.1
    · obtain ⟨d, hd, hdc⟩ := hx
      have h₂ := read_of_mem_unique hq.1 hd
      rw [hdc, h₁] at h₂
      exact hn (by rw [show c = d from Prod.ext hdc.symm h₂]; exact hd)
    · rw [read_of_not_mem fun d hd hdc => hx ⟨d, hd, hdc⟩] at h₁
      exact hp.2.1 c hc h₁.symm
  have nd : ∀ {p : Memory}, wf p → p.Nodup := fun hp => hp.1.imp (fun {c d} hcd heq => by
    subst heq
    exact Nat.lt_irrefl _ hcd)
  have hperm : m.Perm m' := (List.perm_ext_iff_of_nodup (nd h) (nd h')).mpr
    fun c => ⟨key h h' he c, key h' h (fun a => (he a).symm) c⟩
  exact hperm.eq_of_pairwise (le := fun c d : Host.Cell => c.1 < d.1)
    (fun c d _ _ hcd hdc => absurd (Nat.lt_trans hcd hdc) (Nat.lt_irrefl _)) h.1 h'.1

/-! ### Reading a sequence -/

@[simp] theorem length_bytes (m : Memory) (a n : Nat) : (bytes m a n).length = n := by simp [bytes]

theorem byteAt_bytes {m : Memory} {a n i : Nat} (h : i < n) : byteAt (bytes m a n) i = read m (a + i) := by
  simp [bytes, byteAt_seqOf, h]

/-- A stored sequence reads back. -/
theorem bytes_write (m : Memory) (a : Nat) (X : Bytes) : bytes (write m a X) a X.length = X :=
  bytes_ext (by simp) fun i h => by
    rw [length_bytes] at h
    rw [byteAt_bytes h, read_write_in h]

/-- A sequence apart from the stored one reads as before. -/
theorem bytes_write_apart {m : Memory} {a b n : Nat} {X : Bytes} (h : b + n ≤ a ∨ a + X.length ≤ b) :
    bytes (write m a X) b n = bytes m b n :=
  bytes_ext (by simp) fun i hi => by
    rw [length_bytes] at hi
    rw [byteAt_bytes hi, byteAt_bytes hi, read_write_out (by omega)]

/-- A slice of a read sequence is the sequence at the slice's address. -/
theorem slice_bytes {m : Memory} {a n k l : Nat} (h : k + l ≤ n) : slice (bytes m a n) k l = bytes m (a + k) l :=
  bytes_ext (by rw [length_slice (by simpa using h), length_bytes]) fun i hi => by
    rw [length_slice (by simpa using h)] at hi
    rw [byteAt_slice, if_pos hi, byteAt_bytes (by omega), byteAt_bytes hi, Nat.add_assoc]

end Memory

end Sys2Proof.Machine
end

