-- ==== Sys2Proof/Laws/State.lean ====
section
/-! SUPPORT. One lemma per field of State per named update, true by `rfl`, so that no proof unfolds a record update. -/

namespace Sys2Proof.Machine

variable (s : State)

/-! ### issue -/

@[simp] theorem issue_done (w : Word) : (issue w s).done = false := rfl
@[simp] theorem issue_errcode (w : Word) : (issue w s).errcode = s.errcode := rfl
@[simp] theorem issue_ovr (w : Word) : (issue w s).ovr = s.ovr := rfl
@[simp] theorem issue_tvalid (w : Word) : (issue w s).tvalid = s.tvalid := rfl
@[simp] theorem issue_crcok (w : Word) : (issue w s).crcok = s.crcok := rfl
@[simp] theorem issue_recok (w : Word) : (issue w s).recok = s.recok := rfl
@[simp] theorem issue_ready (w : Word) : (issue w s).ready = s.ready := rfl
@[simp] theorem issue_ie (w : Word) : (issue w s).ie = s.ie := rfl
@[simp] theorem issue_idx (w : Word) : (issue w s).idx = s.idx := rfl
@[simp] theorem issue_src (w : Word) : (issue w s).src = s.src := rfl
@[simp] theorem issue_dst (w : Word) : (issue w s).dst = s.dst := rfl
@[simp] theorem issue_img (w : Word) : (issue w s).img = s.img := rfl
@[simp] theorem issue_imga (w : Word) : (issue w s).imga = s.imga := rfl
@[simp] theorem issue_imgcs (w : Word) : (issue w s).imgcs = s.imgcs := rfl
@[simp] theorem issue_scr (w : Word) : (issue w s).scr = s.scr := rfl
@[simp] theorem issue_len (w : Word) : (issue w s).len = s.len := rfl
@[simp] theorem issue_crc32Seed (w : Word) : (issue w s).crc32Seed = s.crc32Seed := rfl
@[simp] theorem issue_crc32Expect (w : Word) : (issue w s).crc32Expect = s.crc32Expect := rfl
@[simp] theorem issue_crc32Result (w : Word) : (issue w s).crc32Result = s.crc32Result := rfl
@[simp] theorem issue_crc16Result (w : Word) : (issue w s).crc16Result = s.crc16Result := rfl
@[simp] theorem issue_serRetryMax (w : Word) : (issue w s).serRetryMax = s.serRetryMax := rfl
@[simp] theorem issue_serAttempts (w : Word) : (issue w s).serAttempts = s.serAttempts := rfl
@[simp] theorem issue_cmdLast (w : Word) : (issue w s).cmdLast = s.cmdLast := rfl
@[simp] theorem issue_tab (w : Word) : (issue w s).tab = s.tab := rfl
@[simp] theorem issue_phase (w : Word) : (issue w s).phase = .pending := rfl
@[simp] theorem issue_pend (w : Word) : (issue w s).pend = w := rfl
@[simp] theorem issue_marks (w : Word) : (issue w s).marks = s.marks := rfl
@[simp] theorem issue_mem (w : Word) : (issue w s).mem = s.mem := rfl
@[simp] theorem issue_supply (w : Word) : (issue w s).supply = s.supply := rfl
@[simp] theorem issue_drawCount (w : Word) : (issue w s).drawCount = s.drawCount := rfl
@[simp] theorem issue_drawPos (w : Word) : (issue w s).drawPos = s.drawPos := rfl
@[simp] theorem issue_frees (w : Word) : (issue w s).frees = s.frees := rfl
@[simp] theorem issue_params (w : Word) : (issue w s).params = s.params := rfl
@[simp] theorem issue_agenda (w : Word) : (issue w s).agenda = s.agenda := rfl
@[simp] theorem issue_answers (w : Word) : (issue w s).answers = s.answers := rfl

/-! ### complete -/

@[simp] theorem complete_done (e : ErrCode) : (complete e s).done = true := rfl
@[simp] theorem complete_errcode (e : ErrCode) : (complete e s).errcode = codeOf e := rfl
@[simp] theorem complete_ovr (e : ErrCode) : (complete e s).ovr = s.ovr := rfl
@[simp] theorem complete_tvalid (e : ErrCode) : (complete e s).tvalid = s.tvalid := rfl
@[simp] theorem complete_crcok (e : ErrCode) : (complete e s).crcok = s.crcok := rfl
@[simp] theorem complete_recok (e : ErrCode) : (complete e s).recok = s.recok := rfl
@[simp] theorem complete_ready (e : ErrCode) : (complete e s).ready = s.ready := rfl
@[simp] theorem complete_ie (e : ErrCode) : (complete e s).ie = s.ie := rfl
@[simp] theorem complete_idx (e : ErrCode) : (complete e s).idx = s.idx := rfl
@[simp] theorem complete_src (e : ErrCode) : (complete e s).src = s.src := rfl
@[simp] theorem complete_dst (e : ErrCode) : (complete e s).dst = s.dst := rfl
@[simp] theorem complete_img (e : ErrCode) : (complete e s).img = s.img := rfl
@[simp] theorem complete_imga (e : ErrCode) : (complete e s).imga = s.imga := rfl
@[simp] theorem complete_imgcs (e : ErrCode) : (complete e s).imgcs = s.imgcs := rfl
@[simp] theorem complete_scr (e : ErrCode) : (complete e s).scr = s.scr := rfl
@[simp] theorem complete_len (e : ErrCode) : (complete e s).len = s.len := rfl
@[simp] theorem complete_crc32Seed (e : ErrCode) : (complete e s).crc32Seed = s.crc32Seed := rfl
@[simp] theorem complete_crc32Expect (e : ErrCode) : (complete e s).crc32Expect = s.crc32Expect := rfl
@[simp] theorem complete_crc32Result (e : ErrCode) : (complete e s).crc32Result = s.crc32Result := rfl
@[simp] theorem complete_crc16Result (e : ErrCode) : (complete e s).crc16Result = s.crc16Result := rfl
@[simp] theorem complete_serRetryMax (e : ErrCode) : (complete e s).serRetryMax = s.serRetryMax := rfl
@[simp] theorem complete_serAttempts (e : ErrCode) : (complete e s).serAttempts = s.serAttempts := rfl
@[simp] theorem complete_cmdLast (e : ErrCode) : (complete e s).cmdLast = s.pend := rfl
@[simp] theorem complete_tab (e : ErrCode) : (complete e s).tab = s.tab := rfl
@[simp] theorem complete_phase (e : ErrCode) : (complete e s).phase = .idle := rfl
@[simp] theorem complete_pend (e : ErrCode) : (complete e s).pend = s.pend := rfl
@[simp] theorem complete_marks (e : ErrCode) : (complete e s).marks = s.marks := rfl
@[simp] theorem complete_mem (e : ErrCode) : (complete e s).mem = s.mem := rfl
@[simp] theorem complete_supply (e : ErrCode) : (complete e s).supply = s.supply := rfl
@[simp] theorem complete_drawCount (e : ErrCode) : (complete e s).drawCount = s.drawCount := rfl
@[simp] theorem complete_drawPos (e : ErrCode) : (complete e s).drawPos = s.drawPos := rfl
@[simp] theorem complete_frees (e : ErrCode) : (complete e s).frees = s.frees := rfl
@[simp] theorem complete_params (e : ErrCode) : (complete e s).params = s.params := rfl
@[simp] theorem complete_agenda (e : ErrCode) : (complete e s).agenda = s.agenda := rfl
@[simp] theorem complete_answers (e : ErrCode) : (complete e s).answers = s.answers := rfl

/-! ### storeBytes -/

@[simp] theorem storeBytes_done (a : Nat) (X : Bytes) : (storeBytes a X s).done = s.done := rfl
@[simp] theorem storeBytes_errcode (a : Nat) (X : Bytes) : (storeBytes a X s).errcode = s.errcode := rfl
@[simp] theorem storeBytes_ovr (a : Nat) (X : Bytes) : (storeBytes a X s).ovr = s.ovr := rfl
@[simp] theorem storeBytes_tvalid (a : Nat) (X : Bytes) : (storeBytes a X s).tvalid = s.tvalid := rfl
@[simp] theorem storeBytes_crcok (a : Nat) (X : Bytes) : (storeBytes a X s).crcok = s.crcok := rfl
@[simp] theorem storeBytes_recok (a : Nat) (X : Bytes) : (storeBytes a X s).recok = s.recok := rfl
@[simp] theorem storeBytes_ready (a : Nat) (X : Bytes) : (storeBytes a X s).ready = s.ready := rfl
@[simp] theorem storeBytes_ie (a : Nat) (X : Bytes) : (storeBytes a X s).ie = s.ie := rfl
@[simp] theorem storeBytes_idx (a : Nat) (X : Bytes) : (storeBytes a X s).idx = s.idx := rfl
@[simp] theorem storeBytes_src (a : Nat) (X : Bytes) : (storeBytes a X s).src = s.src := rfl
@[simp] theorem storeBytes_dst (a : Nat) (X : Bytes) : (storeBytes a X s).dst = s.dst := rfl
@[simp] theorem storeBytes_img (a : Nat) (X : Bytes) : (storeBytes a X s).img = s.img := rfl
@[simp] theorem storeBytes_imga (a : Nat) (X : Bytes) : (storeBytes a X s).imga = s.imga := rfl
@[simp] theorem storeBytes_imgcs (a : Nat) (X : Bytes) : (storeBytes a X s).imgcs = s.imgcs := rfl
@[simp] theorem storeBytes_scr (a : Nat) (X : Bytes) : (storeBytes a X s).scr = s.scr := rfl
@[simp] theorem storeBytes_len (a : Nat) (X : Bytes) : (storeBytes a X s).len = s.len := rfl
@[simp] theorem storeBytes_crc32Seed (a : Nat) (X : Bytes) : (storeBytes a X s).crc32Seed = s.crc32Seed := rfl
@[simp] theorem storeBytes_crc32Expect (a : Nat) (X : Bytes) : (storeBytes a X s).crc32Expect = s.crc32Expect := rfl
@[simp] theorem storeBytes_crc32Result (a : Nat) (X : Bytes) : (storeBytes a X s).crc32Result = s.crc32Result := rfl
@[simp] theorem storeBytes_crc16Result (a : Nat) (X : Bytes) : (storeBytes a X s).crc16Result = s.crc16Result := rfl
@[simp] theorem storeBytes_serRetryMax (a : Nat) (X : Bytes) : (storeBytes a X s).serRetryMax = s.serRetryMax := rfl
@[simp] theorem storeBytes_serAttempts (a : Nat) (X : Bytes) : (storeBytes a X s).serAttempts = s.serAttempts := rfl
@[simp] theorem storeBytes_cmdLast (a : Nat) (X : Bytes) : (storeBytes a X s).cmdLast = s.cmdLast := rfl
@[simp] theorem storeBytes_tab (a : Nat) (X : Bytes) : (storeBytes a X s).tab = s.tab := rfl
@[simp] theorem storeBytes_phase (a : Nat) (X : Bytes) : (storeBytes a X s).phase = s.phase := rfl
@[simp] theorem storeBytes_pend (a : Nat) (X : Bytes) : (storeBytes a X s).pend = s.pend := rfl
@[simp] theorem storeBytes_marks (a : Nat) (X : Bytes) : (storeBytes a X s).marks = s.marks := rfl
@[simp] theorem storeBytes_mem (a : Nat) (X : Bytes) : (storeBytes a X s).mem = Memory.write s.mem a X := rfl
@[simp] theorem storeBytes_supply (a : Nat) (X : Bytes) : (storeBytes a X s).supply = s.supply := rfl
@[simp] theorem storeBytes_drawCount (a : Nat) (X : Bytes) : (storeBytes a X s).drawCount = s.drawCount := rfl
@[simp] theorem storeBytes_drawPos (a : Nat) (X : Bytes) : (storeBytes a X s).drawPos = s.drawPos := rfl
@[simp] theorem storeBytes_frees (a : Nat) (X : Bytes) : (storeBytes a X s).frees = s.frees := rfl
@[simp] theorem storeBytes_params (a : Nat) (X : Bytes) : (storeBytes a X s).params = s.params := rfl
@[simp] theorem storeBytes_agenda (a : Nat) (X : Bytes) : (storeBytes a X s).agenda = s.agenda := rfl
@[simp] theorem storeBytes_answers (a : Nat) (X : Bytes) : (storeBytes a X s).answers = s.answers := rfl

/-! ### setTable -/

@[simp] theorem setTable_done (t : Vector Byte 256) : (setTable t s).done = s.done := rfl
@[simp] theorem setTable_errcode (t : Vector Byte 256) : (setTable t s).errcode = s.errcode := rfl
@[simp] theorem setTable_ovr (t : Vector Byte 256) : (setTable t s).ovr = s.ovr := rfl
@[simp] theorem setTable_tvalid (t : Vector Byte 256) : (setTable t s).tvalid = s.tvalid := rfl
@[simp] theorem setTable_crcok (t : Vector Byte 256) : (setTable t s).crcok = s.crcok := rfl
@[simp] theorem setTable_recok (t : Vector Byte 256) : (setTable t s).recok = s.recok := rfl
@[simp] theorem setTable_ready (t : Vector Byte 256) : (setTable t s).ready = s.ready := rfl
@[simp] theorem setTable_ie (t : Vector Byte 256) : (setTable t s).ie = s.ie := rfl
@[simp] theorem setTable_idx (t : Vector Byte 256) : (setTable t s).idx = s.idx := rfl
@[simp] theorem setTable_src (t : Vector Byte 256) : (setTable t s).src = s.src := rfl
@[simp] theorem setTable_dst (t : Vector Byte 256) : (setTable t s).dst = s.dst := rfl
@[simp] theorem setTable_img (t : Vector Byte 256) : (setTable t s).img = s.img := rfl
@[simp] theorem setTable_imga (t : Vector Byte 256) : (setTable t s).imga = s.imga := rfl
@[simp] theorem setTable_imgcs (t : Vector Byte 256) : (setTable t s).imgcs = s.imgcs := rfl
@[simp] theorem setTable_scr (t : Vector Byte 256) : (setTable t s).scr = s.scr := rfl
@[simp] theorem setTable_len (t : Vector Byte 256) : (setTable t s).len = s.len := rfl
@[simp] theorem setTable_crc32Seed (t : Vector Byte 256) : (setTable t s).crc32Seed = s.crc32Seed := rfl
@[simp] theorem setTable_crc32Expect (t : Vector Byte 256) : (setTable t s).crc32Expect = s.crc32Expect := rfl
@[simp] theorem setTable_crc32Result (t : Vector Byte 256) : (setTable t s).crc32Result = s.crc32Result := rfl
@[simp] theorem setTable_crc16Result (t : Vector Byte 256) : (setTable t s).crc16Result = s.crc16Result := rfl
@[simp] theorem setTable_serRetryMax (t : Vector Byte 256) : (setTable t s).serRetryMax = s.serRetryMax := rfl
@[simp] theorem setTable_serAttempts (t : Vector Byte 256) : (setTable t s).serAttempts = s.serAttempts := rfl
@[simp] theorem setTable_cmdLast (t : Vector Byte 256) : (setTable t s).cmdLast = s.cmdLast := rfl
@[simp] theorem setTable_tab (t : Vector Byte 256) : (setTable t s).tab = t := rfl
@[simp] theorem setTable_phase (t : Vector Byte 256) : (setTable t s).phase = s.phase := rfl
@[simp] theorem setTable_pend (t : Vector Byte 256) : (setTable t s).pend = s.pend := rfl
@[simp] theorem setTable_marks (t : Vector Byte 256) : (setTable t s).marks = s.marks := rfl
@[simp] theorem setTable_mem (t : Vector Byte 256) : (setTable t s).mem = s.mem := rfl
@[simp] theorem setTable_supply (t : Vector Byte 256) : (setTable t s).supply = s.supply := rfl
@[simp] theorem setTable_drawCount (t : Vector Byte 256) : (setTable t s).drawCount = s.drawCount := rfl
@[simp] theorem setTable_drawPos (t : Vector Byte 256) : (setTable t s).drawPos = s.drawPos := rfl
@[simp] theorem setTable_frees (t : Vector Byte 256) : (setTable t s).frees = s.frees := rfl
@[simp] theorem setTable_params (t : Vector Byte 256) : (setTable t s).params = s.params := rfl
@[simp] theorem setTable_agenda (t : Vector Byte 256) : (setTable t s).agenda = s.agenda := rfl
@[simp] theorem setTable_answers (t : Vector Byte 256) : (setTable t s).answers = s.answers := rfl

/-! ### setTvalid -/

@[simp] theorem setTvalid_done : (setTvalid s).done = s.done := rfl
@[simp] theorem setTvalid_errcode : (setTvalid s).errcode = s.errcode := rfl
@[simp] theorem setTvalid_ovr : (setTvalid s).ovr = s.ovr := rfl
@[simp] theorem setTvalid_tvalid : (setTvalid s).tvalid = true := rfl
@[simp] theorem setTvalid_crcok : (setTvalid s).crcok = s.crcok := rfl
@[simp] theorem setTvalid_recok : (setTvalid s).recok = s.recok := rfl
@[simp] theorem setTvalid_ready : (setTvalid s).ready = s.ready := rfl
@[simp] theorem setTvalid_ie : (setTvalid s).ie = s.ie := rfl
@[simp] theorem setTvalid_idx : (setTvalid s).idx = s.idx := rfl
@[simp] theorem setTvalid_src : (setTvalid s).src = s.src := rfl
@[simp] theorem setTvalid_dst : (setTvalid s).dst = s.dst := rfl
@[simp] theorem setTvalid_img : (setTvalid s).img = s.img := rfl
@[simp] theorem setTvalid_imga : (setTvalid s).imga = s.imga := rfl
@[simp] theorem setTvalid_imgcs : (setTvalid s).imgcs = s.imgcs := rfl
@[simp] theorem setTvalid_scr : (setTvalid s).scr = s.scr := rfl
@[simp] theorem setTvalid_len : (setTvalid s).len = s.len := rfl
@[simp] theorem setTvalid_crc32Seed : (setTvalid s).crc32Seed = s.crc32Seed := rfl
@[simp] theorem setTvalid_crc32Expect : (setTvalid s).crc32Expect = s.crc32Expect := rfl
@[simp] theorem setTvalid_crc32Result : (setTvalid s).crc32Result = s.crc32Result := rfl
@[simp] theorem setTvalid_crc16Result : (setTvalid s).crc16Result = s.crc16Result := rfl
@[simp] theorem setTvalid_serRetryMax : (setTvalid s).serRetryMax = s.serRetryMax := rfl
@[simp] theorem setTvalid_serAttempts : (setTvalid s).serAttempts = s.serAttempts := rfl
@[simp] theorem setTvalid_cmdLast : (setTvalid s).cmdLast = s.cmdLast := rfl
@[simp] theorem setTvalid_tab : (setTvalid s).tab = s.tab := rfl
@[simp] theorem setTvalid_phase : (setTvalid s).phase = s.phase := rfl
@[simp] theorem setTvalid_pend : (setTvalid s).pend = s.pend := rfl
@[simp] theorem setTvalid_marks : (setTvalid s).marks = s.marks := rfl
@[simp] theorem setTvalid_mem : (setTvalid s).mem = s.mem := rfl
@[simp] theorem setTvalid_supply : (setTvalid s).supply = s.supply := rfl
@[simp] theorem setTvalid_drawCount : (setTvalid s).drawCount = s.drawCount := rfl
@[simp] theorem setTvalid_drawPos : (setTvalid s).drawPos = s.drawPos := rfl
@[simp] theorem setTvalid_frees : (setTvalid s).frees = s.frees := rfl
@[simp] theorem setTvalid_params : (setTvalid s).params = s.params := rfl
@[simp] theorem setTvalid_agenda : (setTvalid s).agenda = s.agenda := rfl
@[simp] theorem setTvalid_answers : (setTvalid s).answers = s.answers := rfl

/-! ### advanceIdx -/

@[simp] theorem advanceIdx_done (adv : Bool) : (advanceIdx adv s).done = s.done := rfl
@[simp] theorem advanceIdx_errcode (adv : Bool) : (advanceIdx adv s).errcode = s.errcode := rfl
@[simp] theorem advanceIdx_ovr (adv : Bool) : (advanceIdx adv s).ovr = s.ovr := rfl
@[simp] theorem advanceIdx_tvalid (adv : Bool) : (advanceIdx adv s).tvalid = s.tvalid := rfl
@[simp] theorem advanceIdx_crcok (adv : Bool) : (advanceIdx adv s).crcok = s.crcok := rfl
@[simp] theorem advanceIdx_recok (adv : Bool) : (advanceIdx adv s).recok = s.recok := rfl
@[simp] theorem advanceIdx_ready (adv : Bool) : (advanceIdx adv s).ready = s.ready := rfl
@[simp] theorem advanceIdx_ie (adv : Bool) : (advanceIdx adv s).ie = s.ie := rfl
@[simp] theorem advanceIdx_idx (adv : Bool) : (advanceIdx adv s).idx = if adv then s.idx + 4#8 else s.idx := rfl
@[simp] theorem advanceIdx_src (adv : Bool) : (advanceIdx adv s).src = s.src := rfl
@[simp] theorem advanceIdx_dst (adv : Bool) : (advanceIdx adv s).dst = s.dst := rfl
@[simp] theorem advanceIdx_img (adv : Bool) : (advanceIdx adv s).img = s.img := rfl
@[simp] theorem advanceIdx_imga (adv : Bool) : (advanceIdx adv s).imga = s.imga := rfl
@[simp] theorem advanceIdx_imgcs (adv : Bool) : (advanceIdx adv s).imgcs = s.imgcs := rfl
@[simp] theorem advanceIdx_scr (adv : Bool) : (advanceIdx adv s).scr = s.scr := rfl
@[simp] theorem advanceIdx_len (adv : Bool) : (advanceIdx adv s).len = s.len := rfl
@[simp] theorem advanceIdx_crc32Seed (adv : Bool) : (advanceIdx adv s).crc32Seed = s.crc32Seed := rfl
@[simp] theorem advanceIdx_crc32Expect (adv : Bool) : (advanceIdx adv s).crc32Expect = s.crc32Expect := rfl
@[simp] theorem advanceIdx_crc32Result (adv : Bool) : (advanceIdx adv s).crc32Result = s.crc32Result := rfl
@[simp] theorem advanceIdx_crc16Result (adv : Bool) : (advanceIdx adv s).crc16Result = s.crc16Result := rfl
@[simp] theorem advanceIdx_serRetryMax (adv : Bool) : (advanceIdx adv s).serRetryMax = s.serRetryMax := rfl
@[simp] theorem advanceIdx_serAttempts (adv : Bool) : (advanceIdx adv s).serAttempts = s.serAttempts := rfl
@[simp] theorem advanceIdx_cmdLast (adv : Bool) : (advanceIdx adv s).cmdLast = s.cmdLast := rfl
@[simp] theorem advanceIdx_tab (adv : Bool) : (advanceIdx adv s).tab = s.tab := rfl
@[simp] theorem advanceIdx_phase (adv : Bool) : (advanceIdx adv s).phase = s.phase := rfl
@[simp] theorem advanceIdx_pend (adv : Bool) : (advanceIdx adv s).pend = s.pend := rfl
@[simp] theorem advanceIdx_marks (adv : Bool) : (advanceIdx adv s).marks = s.marks := rfl
@[simp] theorem advanceIdx_mem (adv : Bool) : (advanceIdx adv s).mem = s.mem := rfl
@[simp] theorem advanceIdx_supply (adv : Bool) : (advanceIdx adv s).supply = s.supply := rfl
@[simp] theorem advanceIdx_drawCount (adv : Bool) : (advanceIdx adv s).drawCount = s.drawCount := rfl
@[simp] theorem advanceIdx_drawPos (adv : Bool) : (advanceIdx adv s).drawPos = s.drawPos := rfl
@[simp] theorem advanceIdx_frees (adv : Bool) : (advanceIdx adv s).frees = s.frees := rfl
@[simp] theorem advanceIdx_params (adv : Bool) : (advanceIdx adv s).params = s.params := rfl
@[simp] theorem advanceIdx_agenda (adv : Bool) : (advanceIdx adv s).agenda = s.agenda := rfl
@[simp] theorem advanceIdx_answers (adv : Bool) : (advanceIdx adv s).answers = s.answers := rfl

/-! ### setCrc32 -/

@[simp] theorem setCrc32_done (r : Word) (ok : Bool) : (setCrc32 r ok s).done = s.done := rfl
@[simp] theorem setCrc32_errcode (r : Word) (ok : Bool) : (setCrc32 r ok s).errcode = s.errcode := rfl
@[simp] theorem setCrc32_ovr (r : Word) (ok : Bool) : (setCrc32 r ok s).ovr = s.ovr := rfl
@[simp] theorem setCrc32_tvalid (r : Word) (ok : Bool) : (setCrc32 r ok s).tvalid = s.tvalid := rfl
@[simp] theorem setCrc32_crcok (r : Word) (ok : Bool) : (setCrc32 r ok s).crcok = ok := rfl
@[simp] theorem setCrc32_recok (r : Word) (ok : Bool) : (setCrc32 r ok s).recok = s.recok := rfl
@[simp] theorem setCrc32_ready (r : Word) (ok : Bool) : (setCrc32 r ok s).ready = s.ready := rfl
@[simp] theorem setCrc32_ie (r : Word) (ok : Bool) : (setCrc32 r ok s).ie = s.ie := rfl
@[simp] theorem setCrc32_idx (r : Word) (ok : Bool) : (setCrc32 r ok s).idx = s.idx := rfl
@[simp] theorem setCrc32_src (r : Word) (ok : Bool) : (setCrc32 r ok s).src = s.src := rfl
@[simp] theorem setCrc32_dst (r : Word) (ok : Bool) : (setCrc32 r ok s).dst = s.dst := rfl
@[simp] theorem setCrc32_img (r : Word) (ok : Bool) : (setCrc32 r ok s).img = s.img := rfl
@[simp] theorem setCrc32_imga (r : Word) (ok : Bool) : (setCrc32 r ok s).imga = s.imga := rfl
@[simp] theorem setCrc32_imgcs (r : Word) (ok : Bool) : (setCrc32 r ok s).imgcs = s.imgcs := rfl
@[simp] theorem setCrc32_scr (r : Word) (ok : Bool) : (setCrc32 r ok s).scr = s.scr := rfl
@[simp] theorem setCrc32_len (r : Word) (ok : Bool) : (setCrc32 r ok s).len = s.len := rfl
@[simp] theorem setCrc32_crc32Seed (r : Word) (ok : Bool) : (setCrc32 r ok s).crc32Seed = s.crc32Seed := rfl
@[simp] theorem setCrc32_crc32Expect (r : Word) (ok : Bool) : (setCrc32 r ok s).crc32Expect = s.crc32Expect := rfl
@[simp] theorem setCrc32_crc32Result (r : Word) (ok : Bool) : (setCrc32 r ok s).crc32Result = r := rfl
@[simp] theorem setCrc32_crc16Result (r : Word) (ok : Bool) : (setCrc32 r ok s).crc16Result = s.crc16Result := rfl
@[simp] theorem setCrc32_serRetryMax (r : Word) (ok : Bool) : (setCrc32 r ok s).serRetryMax = s.serRetryMax := rfl
@[simp] theorem setCrc32_serAttempts (r : Word) (ok : Bool) : (setCrc32 r ok s).serAttempts = s.serAttempts := rfl
@[simp] theorem setCrc32_cmdLast (r : Word) (ok : Bool) : (setCrc32 r ok s).cmdLast = s.cmdLast := rfl
@[simp] theorem setCrc32_tab (r : Word) (ok : Bool) : (setCrc32 r ok s).tab = s.tab := rfl
@[simp] theorem setCrc32_phase (r : Word) (ok : Bool) : (setCrc32 r ok s).phase = s.phase := rfl
@[simp] theorem setCrc32_pend (r : Word) (ok : Bool) : (setCrc32 r ok s).pend = s.pend := rfl
@[simp] theorem setCrc32_marks (r : Word) (ok : Bool) : (setCrc32 r ok s).marks = s.marks := rfl
@[simp] theorem setCrc32_mem (r : Word) (ok : Bool) : (setCrc32 r ok s).mem = s.mem := rfl
@[simp] theorem setCrc32_supply (r : Word) (ok : Bool) : (setCrc32 r ok s).supply = s.supply := rfl
@[simp] theorem setCrc32_drawCount (r : Word) (ok : Bool) : (setCrc32 r ok s).drawCount = s.drawCount := rfl
@[simp] theorem setCrc32_drawPos (r : Word) (ok : Bool) : (setCrc32 r ok s).drawPos = s.drawPos := rfl
@[simp] theorem setCrc32_frees (r : Word) (ok : Bool) : (setCrc32 r ok s).frees = s.frees := rfl
@[simp] theorem setCrc32_params (r : Word) (ok : Bool) : (setCrc32 r ok s).params = s.params := rfl
@[simp] theorem setCrc32_agenda (r : Word) (ok : Bool) : (setCrc32 r ok s).agenda = s.agenda := rfl
@[simp] theorem setCrc32_answers (r : Word) (ok : Bool) : (setCrc32 r ok s).answers = s.answers := rfl

/-! ### setCrc16 -/

@[simp] theorem setCrc16_done (c : Half) (ok : Bool) : (setCrc16 c ok s).done = s.done := rfl
@[simp] theorem setCrc16_errcode (c : Half) (ok : Bool) : (setCrc16 c ok s).errcode = s.errcode := rfl
@[simp] theorem setCrc16_ovr (c : Half) (ok : Bool) : (setCrc16 c ok s).ovr = s.ovr := rfl
@[simp] theorem setCrc16_tvalid (c : Half) (ok : Bool) : (setCrc16 c ok s).tvalid = s.tvalid := rfl
@[simp] theorem setCrc16_crcok (c : Half) (ok : Bool) : (setCrc16 c ok s).crcok = s.crcok := rfl
@[simp] theorem setCrc16_recok (c : Half) (ok : Bool) : (setCrc16 c ok s).recok = ok := rfl
@[simp] theorem setCrc16_ready (c : Half) (ok : Bool) : (setCrc16 c ok s).ready = s.ready := rfl
@[simp] theorem setCrc16_ie (c : Half) (ok : Bool) : (setCrc16 c ok s).ie = s.ie := rfl
@[simp] theorem setCrc16_idx (c : Half) (ok : Bool) : (setCrc16 c ok s).idx = s.idx := rfl
@[simp] theorem setCrc16_src (c : Half) (ok : Bool) : (setCrc16 c ok s).src = s.src := rfl
@[simp] theorem setCrc16_dst (c : Half) (ok : Bool) : (setCrc16 c ok s).dst = s.dst := rfl
@[simp] theorem setCrc16_img (c : Half) (ok : Bool) : (setCrc16 c ok s).img = s.img := rfl
@[simp] theorem setCrc16_imga (c : Half) (ok : Bool) : (setCrc16 c ok s).imga = s.imga := rfl
@[simp] theorem setCrc16_imgcs (c : Half) (ok : Bool) : (setCrc16 c ok s).imgcs = s.imgcs := rfl
@[simp] theorem setCrc16_scr (c : Half) (ok : Bool) : (setCrc16 c ok s).scr = s.scr := rfl
@[simp] theorem setCrc16_len (c : Half) (ok : Bool) : (setCrc16 c ok s).len = s.len := rfl
@[simp] theorem setCrc16_crc32Seed (c : Half) (ok : Bool) : (setCrc16 c ok s).crc32Seed = s.crc32Seed := rfl
@[simp] theorem setCrc16_crc32Expect (c : Half) (ok : Bool) : (setCrc16 c ok s).crc32Expect = s.crc32Expect := rfl
@[simp] theorem setCrc16_crc32Result (c : Half) (ok : Bool) : (setCrc16 c ok s).crc32Result = s.crc32Result := rfl
@[simp] theorem setCrc16_crc16Result (c : Half) (ok : Bool) : (setCrc16 c ok s).crc16Result = c := rfl
@[simp] theorem setCrc16_serRetryMax (c : Half) (ok : Bool) : (setCrc16 c ok s).serRetryMax = s.serRetryMax := rfl
@[simp] theorem setCrc16_serAttempts (c : Half) (ok : Bool) : (setCrc16 c ok s).serAttempts = s.serAttempts := rfl
@[simp] theorem setCrc16_cmdLast (c : Half) (ok : Bool) : (setCrc16 c ok s).cmdLast = s.cmdLast := rfl
@[simp] theorem setCrc16_tab (c : Half) (ok : Bool) : (setCrc16 c ok s).tab = s.tab := rfl
@[simp] theorem setCrc16_phase (c : Half) (ok : Bool) : (setCrc16 c ok s).phase = s.phase := rfl
@[simp] theorem setCrc16_pend (c : Half) (ok : Bool) : (setCrc16 c ok s).pend = s.pend := rfl
@[simp] theorem setCrc16_marks (c : Half) (ok : Bool) : (setCrc16 c ok s).marks = s.marks := rfl
@[simp] theorem setCrc16_mem (c : Half) (ok : Bool) : (setCrc16 c ok s).mem = s.mem := rfl
@[simp] theorem setCrc16_supply (c : Half) (ok : Bool) : (setCrc16 c ok s).supply = s.supply := rfl
@[simp] theorem setCrc16_drawCount (c : Half) (ok : Bool) : (setCrc16 c ok s).drawCount = s.drawCount := rfl
@[simp] theorem setCrc16_drawPos (c : Half) (ok : Bool) : (setCrc16 c ok s).drawPos = s.drawPos := rfl
@[simp] theorem setCrc16_frees (c : Half) (ok : Bool) : (setCrc16 c ok s).frees = s.frees := rfl
@[simp] theorem setCrc16_params (c : Half) (ok : Bool) : (setCrc16 c ok s).params = s.params := rfl
@[simp] theorem setCrc16_agenda (c : Half) (ok : Bool) : (setCrc16 c ok s).agenda = s.agenda := rfl
@[simp] theorem setCrc16_answers (c : Half) (ok : Bool) : (setCrc16 c ok s).answers = s.answers := rfl

/-! ### setAttempts -/

@[simp] theorem setAttempts_done (n : Word) : (setAttempts n s).done = s.done := rfl
@[simp] theorem setAttempts_errcode (n : Word) : (setAttempts n s).errcode = s.errcode := rfl
@[simp] theorem setAttempts_ovr (n : Word) : (setAttempts n s).ovr = s.ovr := rfl
@[simp] theorem setAttempts_tvalid (n : Word) : (setAttempts n s).tvalid = s.tvalid := rfl
@[simp] theorem setAttempts_crcok (n : Word) : (setAttempts n s).crcok = s.crcok := rfl
@[simp] theorem setAttempts_recok (n : Word) : (setAttempts n s).recok = s.recok := rfl
@[simp] theorem setAttempts_ready (n : Word) : (setAttempts n s).ready = s.ready := rfl
@[simp] theorem setAttempts_ie (n : Word) : (setAttempts n s).ie = s.ie := rfl
@[simp] theorem setAttempts_idx (n : Word) : (setAttempts n s).idx = s.idx := rfl
@[simp] theorem setAttempts_src (n : Word) : (setAttempts n s).src = s.src := rfl
@[simp] theorem setAttempts_dst (n : Word) : (setAttempts n s).dst = s.dst := rfl
@[simp] theorem setAttempts_img (n : Word) : (setAttempts n s).img = s.img := rfl
@[simp] theorem setAttempts_imga (n : Word) : (setAttempts n s).imga = s.imga := rfl
@[simp] theorem setAttempts_imgcs (n : Word) : (setAttempts n s).imgcs = s.imgcs := rfl
@[simp] theorem setAttempts_scr (n : Word) : (setAttempts n s).scr = s.scr := rfl
@[simp] theorem setAttempts_len (n : Word) : (setAttempts n s).len = s.len := rfl
@[simp] theorem setAttempts_crc32Seed (n : Word) : (setAttempts n s).crc32Seed = s.crc32Seed := rfl
@[simp] theorem setAttempts_crc32Expect (n : Word) : (setAttempts n s).crc32Expect = s.crc32Expect := rfl
@[simp] theorem setAttempts_crc32Result (n : Word) : (setAttempts n s).crc32Result = s.crc32Result := rfl
@[simp] theorem setAttempts_crc16Result (n : Word) : (setAttempts n s).crc16Result = s.crc16Result := rfl
@[simp] theorem setAttempts_serRetryMax (n : Word) : (setAttempts n s).serRetryMax = s.serRetryMax := rfl
@[simp] theorem setAttempts_serAttempts (n : Word) : (setAttempts n s).serAttempts = n := rfl
@[simp] theorem setAttempts_cmdLast (n : Word) : (setAttempts n s).cmdLast = s.cmdLast := rfl
@[simp] theorem setAttempts_tab (n : Word) : (setAttempts n s).tab = s.tab := rfl
@[simp] theorem setAttempts_phase (n : Word) : (setAttempts n s).phase = s.phase := rfl
@[simp] theorem setAttempts_pend (n : Word) : (setAttempts n s).pend = s.pend := rfl
@[simp] theorem setAttempts_marks (n : Word) : (setAttempts n s).marks = s.marks := rfl
@[simp] theorem setAttempts_mem (n : Word) : (setAttempts n s).mem = s.mem := rfl
@[simp] theorem setAttempts_supply (n : Word) : (setAttempts n s).supply = s.supply := rfl
@[simp] theorem setAttempts_drawCount (n : Word) : (setAttempts n s).drawCount = s.drawCount := rfl
@[simp] theorem setAttempts_drawPos (n : Word) : (setAttempts n s).drawPos = s.drawPos := rfl
@[simp] theorem setAttempts_frees (n : Word) : (setAttempts n s).frees = s.frees := rfl
@[simp] theorem setAttempts_params (n : Word) : (setAttempts n s).params = s.params := rfl
@[simp] theorem setAttempts_agenda (n : Word) : (setAttempts n s).agenda = s.agenda := rfl
@[simp] theorem setAttempts_answers (n : Word) : (setAttempts n s).answers = s.answers := rfl

/-! ### enterLoop -/

@[simp] theorem enterLoop_done (w : SerWork) : (enterLoop w s).done = s.done := rfl
@[simp] theorem enterLoop_errcode (w : SerWork) : (enterLoop w s).errcode = s.errcode := rfl
@[simp] theorem enterLoop_ovr (w : SerWork) : (enterLoop w s).ovr = s.ovr := rfl
@[simp] theorem enterLoop_tvalid (w : SerWork) : (enterLoop w s).tvalid = s.tvalid := rfl
@[simp] theorem enterLoop_crcok (w : SerWork) : (enterLoop w s).crcok = s.crcok := rfl
@[simp] theorem enterLoop_recok (w : SerWork) : (enterLoop w s).recok = s.recok := rfl
@[simp] theorem enterLoop_ready (w : SerWork) : (enterLoop w s).ready = s.ready := rfl
@[simp] theorem enterLoop_ie (w : SerWork) : (enterLoop w s).ie = s.ie := rfl
@[simp] theorem enterLoop_idx (w : SerWork) : (enterLoop w s).idx = s.idx := rfl
@[simp] theorem enterLoop_src (w : SerWork) : (enterLoop w s).src = s.src := rfl
@[simp] theorem enterLoop_dst (w : SerWork) : (enterLoop w s).dst = s.dst := rfl
@[simp] theorem enterLoop_img (w : SerWork) : (enterLoop w s).img = s.img := rfl
@[simp] theorem enterLoop_imga (w : SerWork) : (enterLoop w s).imga = s.imga := rfl
@[simp] theorem enterLoop_imgcs (w : SerWork) : (enterLoop w s).imgcs = s.imgcs := rfl
@[simp] theorem enterLoop_scr (w : SerWork) : (enterLoop w s).scr = s.scr := rfl
@[simp] theorem enterLoop_len (w : SerWork) : (enterLoop w s).len = s.len := rfl
@[simp] theorem enterLoop_crc32Seed (w : SerWork) : (enterLoop w s).crc32Seed = s.crc32Seed := rfl
@[simp] theorem enterLoop_crc32Expect (w : SerWork) : (enterLoop w s).crc32Expect = s.crc32Expect := rfl
@[simp] theorem enterLoop_crc32Result (w : SerWork) : (enterLoop w s).crc32Result = s.crc32Result := rfl
@[simp] theorem enterLoop_crc16Result (w : SerWork) : (enterLoop w s).crc16Result = s.crc16Result := rfl
@[simp] theorem enterLoop_serRetryMax (w : SerWork) : (enterLoop w s).serRetryMax = s.serRetryMax := rfl
@[simp] theorem enterLoop_serAttempts (w : SerWork) : (enterLoop w s).serAttempts = s.serAttempts := rfl
@[simp] theorem enterLoop_cmdLast (w : SerWork) : (enterLoop w s).cmdLast = s.cmdLast := rfl
@[simp] theorem enterLoop_tab (w : SerWork) : (enterLoop w s).tab = s.tab := rfl
@[simp] theorem enterLoop_phase (w : SerWork) : (enterLoop w s).phase = .serloop w := rfl
@[simp] theorem enterLoop_pend (w : SerWork) : (enterLoop w s).pend = s.pend := rfl
@[simp] theorem enterLoop_marks (w : SerWork) : (enterLoop w s).marks = s.marks := rfl
@[simp] theorem enterLoop_mem (w : SerWork) : (enterLoop w s).mem = s.mem := rfl
@[simp] theorem enterLoop_supply (w : SerWork) : (enterLoop w s).supply = s.supply := rfl
@[simp] theorem enterLoop_drawCount (w : SerWork) : (enterLoop w s).drawCount = s.drawCount := rfl
@[simp] theorem enterLoop_drawPos (w : SerWork) : (enterLoop w s).drawPos = s.drawPos := rfl
@[simp] theorem enterLoop_frees (w : SerWork) : (enterLoop w s).frees = s.frees := rfl
@[simp] theorem enterLoop_params (w : SerWork) : (enterLoop w s).params = s.params := rfl
@[simp] theorem enterLoop_agenda (w : SerWork) : (enterLoop w s).agenda = s.agenda := rfl
@[simp] theorem enterLoop_answers (w : SerWork) : (enterLoop w s).answers = s.answers := rfl

/-! ### consumeDraws -/

@[simp] theorem consumeDraws_done (n c : Nat) : (consumeDraws n c s).done = s.done := rfl
@[simp] theorem consumeDraws_errcode (n c : Nat) : (consumeDraws n c s).errcode = s.errcode := rfl
@[simp] theorem consumeDraws_ovr (n c : Nat) : (consumeDraws n c s).ovr = s.ovr := rfl
@[simp] theorem consumeDraws_tvalid (n c : Nat) : (consumeDraws n c s).tvalid = s.tvalid := rfl
@[simp] theorem consumeDraws_crcok (n c : Nat) : (consumeDraws n c s).crcok = s.crcok := rfl
@[simp] theorem consumeDraws_recok (n c : Nat) : (consumeDraws n c s).recok = s.recok := rfl
@[simp] theorem consumeDraws_ready (n c : Nat) : (consumeDraws n c s).ready = s.ready := rfl
@[simp] theorem consumeDraws_ie (n c : Nat) : (consumeDraws n c s).ie = s.ie := rfl
@[simp] theorem consumeDraws_idx (n c : Nat) : (consumeDraws n c s).idx = s.idx := rfl
@[simp] theorem consumeDraws_src (n c : Nat) : (consumeDraws n c s).src = s.src := rfl
@[simp] theorem consumeDraws_dst (n c : Nat) : (consumeDraws n c s).dst = s.dst := rfl
@[simp] theorem consumeDraws_img (n c : Nat) : (consumeDraws n c s).img = s.img := rfl
@[simp] theorem consumeDraws_imga (n c : Nat) : (consumeDraws n c s).imga = s.imga := rfl
@[simp] theorem consumeDraws_imgcs (n c : Nat) : (consumeDraws n c s).imgcs = s.imgcs := rfl
@[simp] theorem consumeDraws_scr (n c : Nat) : (consumeDraws n c s).scr = s.scr := rfl
@[simp] theorem consumeDraws_len (n c : Nat) : (consumeDraws n c s).len = s.len := rfl
@[simp] theorem consumeDraws_crc32Seed (n c : Nat) : (consumeDraws n c s).crc32Seed = s.crc32Seed := rfl
@[simp] theorem consumeDraws_crc32Expect (n c : Nat) : (consumeDraws n c s).crc32Expect = s.crc32Expect := rfl
@[simp] theorem consumeDraws_crc32Result (n c : Nat) : (consumeDraws n c s).crc32Result = s.crc32Result := rfl
@[simp] theorem consumeDraws_crc16Result (n c : Nat) : (consumeDraws n c s).crc16Result = s.crc16Result := rfl
@[simp] theorem consumeDraws_serRetryMax (n c : Nat) : (consumeDraws n c s).serRetryMax = s.serRetryMax := rfl
@[simp] theorem consumeDraws_serAttempts (n c : Nat) : (consumeDraws n c s).serAttempts = s.serAttempts := rfl
@[simp] theorem consumeDraws_cmdLast (n c : Nat) : (consumeDraws n c s).cmdLast = s.cmdLast := rfl
@[simp] theorem consumeDraws_tab (n c : Nat) : (consumeDraws n c s).tab = s.tab := rfl
@[simp] theorem consumeDraws_phase (n c : Nat) : (consumeDraws n c s).phase = s.phase := rfl
@[simp] theorem consumeDraws_pend (n c : Nat) : (consumeDraws n c s).pend = s.pend := rfl
@[simp] theorem consumeDraws_marks (n c : Nat) : (consumeDraws n c s).marks = s.marks := rfl
@[simp] theorem consumeDraws_mem (n c : Nat) : (consumeDraws n c s).mem = s.mem := rfl
@[simp] theorem consumeDraws_supply (n c : Nat) : (consumeDraws n c s).supply = s.supply.drop n := rfl
@[simp] theorem consumeDraws_drawCount (n c : Nat) : (consumeDraws n c s).drawCount = s.drawCount + c := rfl
@[simp] theorem consumeDraws_drawPos (n c : Nat) : (consumeDraws n c s).drawPos = s.drawPos + n := rfl
@[simp] theorem consumeDraws_frees (n c : Nat) : (consumeDraws n c s).frees = s.frees := rfl
@[simp] theorem consumeDraws_params (n c : Nat) : (consumeDraws n c s).params = s.params := rfl
@[simp] theorem consumeDraws_agenda (n c : Nat) : (consumeDraws n c s).agenda = s.agenda := rfl
@[simp] theorem consumeDraws_answers (n c : Nat) : (consumeDraws n c s).answers = s.answers := rfl

/-! ### writeStatus -/

@[simp] theorem writeStatus_done (w : Word) : (writeStatus w s).done = (s.done && !w.getLsbD 1) := rfl
@[simp] theorem writeStatus_errcode (w : Word) : (writeStatus w s).errcode = s.errcode := rfl
@[simp] theorem writeStatus_ovr (w : Word) : (writeStatus w s).ovr = (s.ovr && !w.getLsbD 8) := rfl
@[simp] theorem writeStatus_tvalid (w : Word) : (writeStatus w s).tvalid = s.tvalid := rfl
@[simp] theorem writeStatus_crcok (w : Word) : (writeStatus w s).crcok = s.crcok := rfl
@[simp] theorem writeStatus_recok (w : Word) : (writeStatus w s).recok = s.recok := rfl
@[simp] theorem writeStatus_ready (w : Word) : (writeStatus w s).ready = s.ready := rfl
@[simp] theorem writeStatus_ie (w : Word) : (writeStatus w s).ie = s.ie := rfl
@[simp] theorem writeStatus_idx (w : Word) : (writeStatus w s).idx = s.idx := rfl
@[simp] theorem writeStatus_src (w : Word) : (writeStatus w s).src = s.src := rfl
@[simp] theorem writeStatus_dst (w : Word) : (writeStatus w s).dst = s.dst := rfl
@[simp] theorem writeStatus_img (w : Word) : (writeStatus w s).img = s.img := rfl
@[simp] theorem writeStatus_imga (w : Word) : (writeStatus w s).imga = s.imga := rfl
@[simp] theorem writeStatus_imgcs (w : Word) : (writeStatus w s).imgcs = s.imgcs := rfl
@[simp] theorem writeStatus_scr (w : Word) : (writeStatus w s).scr = s.scr := rfl
@[simp] theorem writeStatus_len (w : Word) : (writeStatus w s).len = s.len := rfl
@[simp] theorem writeStatus_crc32Seed (w : Word) : (writeStatus w s).crc32Seed = s.crc32Seed := rfl
@[simp] theorem writeStatus_crc32Expect (w : Word) : (writeStatus w s).crc32Expect = s.crc32Expect := rfl
@[simp] theorem writeStatus_crc32Result (w : Word) : (writeStatus w s).crc32Result = s.crc32Result := rfl
@[simp] theorem writeStatus_crc16Result (w : Word) : (writeStatus w s).crc16Result = s.crc16Result := rfl
@[simp] theorem writeStatus_serRetryMax (w : Word) : (writeStatus w s).serRetryMax = s.serRetryMax := rfl
@[simp] theorem writeStatus_serAttempts (w : Word) : (writeStatus w s).serAttempts = s.serAttempts := rfl
@[simp] theorem writeStatus_cmdLast (w : Word) : (writeStatus w s).cmdLast = s.cmdLast := rfl
@[simp] theorem writeStatus_tab (w : Word) : (writeStatus w s).tab = s.tab := rfl
@[simp] theorem writeStatus_phase (w : Word) : (writeStatus w s).phase = s.phase := rfl
@[simp] theorem writeStatus_pend (w : Word) : (writeStatus w s).pend = s.pend := rfl
@[simp] theorem writeStatus_marks (w : Word) : (writeStatus w s).marks = s.marks := rfl
@[simp] theorem writeStatus_mem (w : Word) : (writeStatus w s).mem = s.mem := rfl
@[simp] theorem writeStatus_supply (w : Word) : (writeStatus w s).supply = s.supply := rfl
@[simp] theorem writeStatus_drawCount (w : Word) : (writeStatus w s).drawCount = s.drawCount := rfl
@[simp] theorem writeStatus_drawPos (w : Word) : (writeStatus w s).drawPos = s.drawPos := rfl
@[simp] theorem writeStatus_frees (w : Word) : (writeStatus w s).frees = s.frees := rfl
@[simp] theorem writeStatus_params (w : Word) : (writeStatus w s).params = s.params := rfl
@[simp] theorem writeStatus_agenda (w : Word) : (writeStatus w s).agenda = s.agenda := rfl
@[simp] theorem writeStatus_answers (w : Word) : (writeStatus w s).answers = s.answers := rfl

/-! ### writeCfg -/

@[simp] theorem writeCfg_done (w : Word) : (writeCfg w s).done = s.done := rfl
@[simp] theorem writeCfg_errcode (w : Word) : (writeCfg w s).errcode = s.errcode := rfl
@[simp] theorem writeCfg_ovr (w : Word) : (writeCfg w s).ovr = s.ovr := rfl
@[simp] theorem writeCfg_tvalid (w : Word) : (writeCfg w s).tvalid = s.tvalid := rfl
@[simp] theorem writeCfg_crcok (w : Word) : (writeCfg w s).crcok = s.crcok := rfl
@[simp] theorem writeCfg_recok (w : Word) : (writeCfg w s).recok = s.recok := rfl
@[simp] theorem writeCfg_ready (w : Word) : (writeCfg w s).ready = (s.ready || w.getLsbD 0) := rfl
@[simp] theorem writeCfg_ie (w : Word) : (writeCfg w s).ie = w.getLsbD 1 := rfl
@[simp] theorem writeCfg_idx (w : Word) : (writeCfg w s).idx = s.idx := rfl
@[simp] theorem writeCfg_src (w : Word) : (writeCfg w s).src = s.src := rfl
@[simp] theorem writeCfg_dst (w : Word) : (writeCfg w s).dst = s.dst := rfl
@[simp] theorem writeCfg_img (w : Word) : (writeCfg w s).img = s.img := rfl
@[simp] theorem writeCfg_imga (w : Word) : (writeCfg w s).imga = s.imga := rfl
@[simp] theorem writeCfg_imgcs (w : Word) : (writeCfg w s).imgcs = s.imgcs := rfl
@[simp] theorem writeCfg_scr (w : Word) : (writeCfg w s).scr = s.scr := rfl
@[simp] theorem writeCfg_len (w : Word) : (writeCfg w s).len = s.len := rfl
@[simp] theorem writeCfg_crc32Seed (w : Word) : (writeCfg w s).crc32Seed = s.crc32Seed := rfl
@[simp] theorem writeCfg_crc32Expect (w : Word) : (writeCfg w s).crc32Expect = s.crc32Expect := rfl
@[simp] theorem writeCfg_crc32Result (w : Word) : (writeCfg w s).crc32Result = s.crc32Result := rfl
@[simp] theorem writeCfg_crc16Result (w : Word) : (writeCfg w s).crc16Result = s.crc16Result := rfl
@[simp] theorem writeCfg_serRetryMax (w : Word) : (writeCfg w s).serRetryMax = s.serRetryMax := rfl
@[simp] theorem writeCfg_serAttempts (w : Word) : (writeCfg w s).serAttempts = s.serAttempts := rfl
@[simp] theorem writeCfg_cmdLast (w : Word) : (writeCfg w s).cmdLast = s.cmdLast := rfl
@[simp] theorem writeCfg_tab (w : Word) : (writeCfg w s).tab = s.tab := rfl
@[simp] theorem writeCfg_phase (w : Word) : (writeCfg w s).phase = s.phase := rfl
@[simp] theorem writeCfg_pend (w : Word) : (writeCfg w s).pend = s.pend := rfl
@[simp] theorem writeCfg_marks (w : Word) : (writeCfg w s).marks = s.marks := rfl
@[simp] theorem writeCfg_mem (w : Word) : (writeCfg w s).mem = s.mem := rfl
@[simp] theorem writeCfg_supply (w : Word) : (writeCfg w s).supply = s.supply := rfl
@[simp] theorem writeCfg_drawCount (w : Word) : (writeCfg w s).drawCount = s.drawCount := rfl
@[simp] theorem writeCfg_drawPos (w : Word) : (writeCfg w s).drawPos = s.drawPos := rfl
@[simp] theorem writeCfg_frees (w : Word) : (writeCfg w s).frees = s.frees := rfl
@[simp] theorem writeCfg_params (w : Word) : (writeCfg w s).params = s.params := rfl
@[simp] theorem writeCfg_agenda (w : Word) : (writeCfg w s).agenda = s.agenda := rfl
@[simp] theorem writeCfg_answers (w : Word) : (writeCfg w s).answers = s.answers := rfl

/-! ### markRefused -/

@[simp] theorem markRefused_done : (markRefused s).done = s.done := rfl
@[simp] theorem markRefused_errcode : (markRefused s).errcode = s.errcode := rfl
@[simp] theorem markRefused_ovr : (markRefused s).ovr = s.ovr := rfl
@[simp] theorem markRefused_tvalid : (markRefused s).tvalid = s.tvalid := rfl
@[simp] theorem markRefused_crcok : (markRefused s).crcok = s.crcok := rfl
@[simp] theorem markRefused_recok : (markRefused s).recok = s.recok := rfl
@[simp] theorem markRefused_ready : (markRefused s).ready = s.ready := rfl
@[simp] theorem markRefused_ie : (markRefused s).ie = s.ie := rfl
@[simp] theorem markRefused_idx : (markRefused s).idx = s.idx := rfl
@[simp] theorem markRefused_src : (markRefused s).src = s.src := rfl
@[simp] theorem markRefused_dst : (markRefused s).dst = s.dst := rfl
@[simp] theorem markRefused_img : (markRefused s).img = s.img := rfl
@[simp] theorem markRefused_imga : (markRefused s).imga = s.imga := rfl
@[simp] theorem markRefused_imgcs : (markRefused s).imgcs = s.imgcs := rfl
@[simp] theorem markRefused_scr : (markRefused s).scr = s.scr := rfl
@[simp] theorem markRefused_len : (markRefused s).len = s.len := rfl
@[simp] theorem markRefused_crc32Seed : (markRefused s).crc32Seed = s.crc32Seed := rfl
@[simp] theorem markRefused_crc32Expect : (markRefused s).crc32Expect = s.crc32Expect := rfl
@[simp] theorem markRefused_crc32Result : (markRefused s).crc32Result = s.crc32Result := rfl
@[simp] theorem markRefused_crc16Result : (markRefused s).crc16Result = s.crc16Result := rfl
@[simp] theorem markRefused_serRetryMax : (markRefused s).serRetryMax = s.serRetryMax := rfl
@[simp] theorem markRefused_serAttempts : (markRefused s).serAttempts = s.serAttempts := rfl
@[simp] theorem markRefused_cmdLast : (markRefused s).cmdLast = s.cmdLast := rfl
@[simp] theorem markRefused_tab : (markRefused s).tab = s.tab := rfl
@[simp] theorem markRefused_phase : (markRefused s).phase = s.phase := rfl
@[simp] theorem markRefused_pend : (markRefused s).pend = s.pend := rfl
@[simp] theorem markRefused_marks : (markRefused s).marks = { s.marks with refused := true } := rfl
@[simp] theorem markRefused_mem : (markRefused s).mem = s.mem := rfl
@[simp] theorem markRefused_supply : (markRefused s).supply = s.supply := rfl
@[simp] theorem markRefused_drawCount : (markRefused s).drawCount = s.drawCount := rfl
@[simp] theorem markRefused_drawPos : (markRefused s).drawPos = s.drawPos := rfl
@[simp] theorem markRefused_frees : (markRefused s).frees = s.frees := rfl
@[simp] theorem markRefused_params : (markRefused s).params = s.params := rfl
@[simp] theorem markRefused_agenda : (markRefused s).agenda = s.agenda := rfl
@[simp] theorem markRefused_answers : (markRefused s).answers = s.answers := rfl

/-! ### answer -/

@[simp] theorem answer_done (v : Answer) : (answer v s).done = s.done := rfl
@[simp] theorem answer_errcode (v : Answer) : (answer v s).errcode = s.errcode := rfl
@[simp] theorem answer_ovr (v : Answer) : (answer v s).ovr = s.ovr := rfl
@[simp] theorem answer_tvalid (v : Answer) : (answer v s).tvalid = s.tvalid := rfl
@[simp] theorem answer_crcok (v : Answer) : (answer v s).crcok = s.crcok := rfl
@[simp] theorem answer_recok (v : Answer) : (answer v s).recok = s.recok := rfl
@[simp] theorem answer_ready (v : Answer) : (answer v s).ready = s.ready := rfl
@[simp] theorem answer_ie (v : Answer) : (answer v s).ie = s.ie := rfl
@[simp] theorem answer_idx (v : Answer) : (answer v s).idx = s.idx := rfl
@[simp] theorem answer_src (v : Answer) : (answer v s).src = s.src := rfl
@[simp] theorem answer_dst (v : Answer) : (answer v s).dst = s.dst := rfl
@[simp] theorem answer_img (v : Answer) : (answer v s).img = s.img := rfl
@[simp] theorem answer_imga (v : Answer) : (answer v s).imga = s.imga := rfl
@[simp] theorem answer_imgcs (v : Answer) : (answer v s).imgcs = s.imgcs := rfl
@[simp] theorem answer_scr (v : Answer) : (answer v s).scr = s.scr := rfl
@[simp] theorem answer_len (v : Answer) : (answer v s).len = s.len := rfl
@[simp] theorem answer_crc32Seed (v : Answer) : (answer v s).crc32Seed = s.crc32Seed := rfl
@[simp] theorem answer_crc32Expect (v : Answer) : (answer v s).crc32Expect = s.crc32Expect := rfl
@[simp] theorem answer_crc32Result (v : Answer) : (answer v s).crc32Result = s.crc32Result := rfl
@[simp] theorem answer_crc16Result (v : Answer) : (answer v s).crc16Result = s.crc16Result := rfl
@[simp] theorem answer_serRetryMax (v : Answer) : (answer v s).serRetryMax = s.serRetryMax := rfl
@[simp] theorem answer_serAttempts (v : Answer) : (answer v s).serAttempts = s.serAttempts := rfl
@[simp] theorem answer_cmdLast (v : Answer) : (answer v s).cmdLast = s.cmdLast := rfl
@[simp] theorem answer_tab (v : Answer) : (answer v s).tab = s.tab := rfl
@[simp] theorem answer_phase (v : Answer) : (answer v s).phase = s.phase := rfl
@[simp] theorem answer_pend (v : Answer) : (answer v s).pend = s.pend := rfl
@[simp] theorem answer_marks (v : Answer) : (answer v s).marks = s.marks := rfl
@[simp] theorem answer_mem (v : Answer) : (answer v s).mem = s.mem := rfl
@[simp] theorem answer_supply (v : Answer) : (answer v s).supply = s.supply := rfl
@[simp] theorem answer_drawCount (v : Answer) : (answer v s).drawCount = s.drawCount := rfl
@[simp] theorem answer_drawPos (v : Answer) : (answer v s).drawPos = s.drawPos := rfl
@[simp] theorem answer_frees (v : Answer) : (answer v s).frees = s.frees := rfl
@[simp] theorem answer_params (v : Answer) : (answer v s).params = s.params := rfl
@[simp] theorem answer_agenda (v : Answer) : (answer v s).agenda = s.agenda := rfl
@[simp] theorem answer_answers (v : Answer) : (answer v s).answers = v :: s.answers := rfl

/-! ### markHazard -/

@[simp] theorem markHazard_done (a : Nat) : (markHazard a s).done = s.done := rfl
@[simp] theorem markHazard_errcode (a : Nat) : (markHazard a s).errcode = s.errcode := rfl
@[simp] theorem markHazard_ovr (a : Nat) : (markHazard a s).ovr = s.ovr := rfl
@[simp] theorem markHazard_tvalid (a : Nat) : (markHazard a s).tvalid = s.tvalid := rfl
@[simp] theorem markHazard_crcok (a : Nat) : (markHazard a s).crcok = s.crcok := rfl
@[simp] theorem markHazard_recok (a : Nat) : (markHazard a s).recok = s.recok := rfl
@[simp] theorem markHazard_ready (a : Nat) : (markHazard a s).ready = s.ready := rfl
@[simp] theorem markHazard_ie (a : Nat) : (markHazard a s).ie = s.ie := rfl
@[simp] theorem markHazard_idx (a : Nat) : (markHazard a s).idx = s.idx := rfl
@[simp] theorem markHazard_src (a : Nat) : (markHazard a s).src = s.src := rfl
@[simp] theorem markHazard_dst (a : Nat) : (markHazard a s).dst = s.dst := rfl
@[simp] theorem markHazard_img (a : Nat) : (markHazard a s).img = s.img := rfl
@[simp] theorem markHazard_imga (a : Nat) : (markHazard a s).imga = s.imga := rfl
@[simp] theorem markHazard_imgcs (a : Nat) : (markHazard a s).imgcs = s.imgcs := rfl
@[simp] theorem markHazard_scr (a : Nat) : (markHazard a s).scr = s.scr := rfl
@[simp] theorem markHazard_len (a : Nat) : (markHazard a s).len = s.len := rfl
@[simp] theorem markHazard_crc32Seed (a : Nat) : (markHazard a s).crc32Seed = s.crc32Seed := rfl
@[simp] theorem markHazard_crc32Expect (a : Nat) : (markHazard a s).crc32Expect = s.crc32Expect := rfl
@[simp] theorem markHazard_crc32Result (a : Nat) : (markHazard a s).crc32Result = s.crc32Result := rfl
@[simp] theorem markHazard_crc16Result (a : Nat) : (markHazard a s).crc16Result = s.crc16Result := rfl
@[simp] theorem markHazard_serRetryMax (a : Nat) : (markHazard a s).serRetryMax = s.serRetryMax := rfl
@[simp] theorem markHazard_serAttempts (a : Nat) : (markHazard a s).serAttempts = s.serAttempts := rfl
@[simp] theorem markHazard_cmdLast (a : Nat) : (markHazard a s).cmdLast = s.cmdLast := rfl
@[simp] theorem markHazard_tab (a : Nat) : (markHazard a s).tab = s.tab := rfl
@[simp] theorem markHazard_phase (a : Nat) : (markHazard a s).phase = s.phase := rfl
@[simp] theorem markHazard_pend (a : Nat) : (markHazard a s).pend = s.pend := rfl
@[simp] theorem markHazard_marks (a : Nat) : (markHazard a s).marks = { s.marks with faults := insertSorted a s.marks.faults } := rfl
@[simp] theorem markHazard_mem (a : Nat) : (markHazard a s).mem = s.mem := rfl
@[simp] theorem markHazard_supply (a : Nat) : (markHazard a s).supply = s.supply := rfl
@[simp] theorem markHazard_drawCount (a : Nat) : (markHazard a s).drawCount = s.drawCount := rfl
@[simp] theorem markHazard_drawPos (a : Nat) : (markHazard a s).drawPos = s.drawPos := rfl
@[simp] theorem markHazard_frees (a : Nat) : (markHazard a s).frees = s.frees := rfl
@[simp] theorem markHazard_params (a : Nat) : (markHazard a s).params = s.params := rfl
@[simp] theorem markHazard_agenda (a : Nat) : (markHazard a s).agenda = s.agenda := rfl
@[simp] theorem markHazard_answers (a : Nat) : (markHazard a s).answers = s.answers := rfl

/-! ### popTurn -/

@[simp] theorem popTurn_done : (popTurn s).done = s.done := rfl
@[simp] theorem popTurn_errcode : (popTurn s).errcode = s.errcode := rfl
@[simp] theorem popTurn_ovr : (popTurn s).ovr = s.ovr := rfl
@[simp] theorem popTurn_tvalid : (popTurn s).tvalid = s.tvalid := rfl
@[simp] theorem popTurn_crcok : (popTurn s).crcok = s.crcok := rfl
@[simp] theorem popTurn_recok : (popTurn s).recok = s.recok := rfl
@[simp] theorem popTurn_ready : (popTurn s).ready = s.ready := rfl
@[simp] theorem popTurn_ie : (popTurn s).ie = s.ie := rfl
@[simp] theorem popTurn_idx : (popTurn s).idx = s.idx := rfl
@[simp] theorem popTurn_src : (popTurn s).src = s.src := rfl
@[simp] theorem popTurn_dst : (popTurn s).dst = s.dst := rfl
@[simp] theorem popTurn_img : (popTurn s).img = s.img := rfl
@[simp] theorem popTurn_imga : (popTurn s).imga = s.imga := rfl
@[simp] theorem popTurn_imgcs : (popTurn s).imgcs = s.imgcs := rfl
@[simp] theorem popTurn_scr : (popTurn s).scr = s.scr := rfl
@[simp] theorem popTurn_len : (popTurn s).len = s.len := rfl
@[simp] theorem popTurn_crc32Seed : (popTurn s).crc32Seed = s.crc32Seed := rfl
@[simp] theorem popTurn_crc32Expect : (popTurn s).crc32Expect = s.crc32Expect := rfl
@[simp] theorem popTurn_crc32Result : (popTurn s).crc32Result = s.crc32Result := rfl
@[simp] theorem popTurn_crc16Result : (popTurn s).crc16Result = s.crc16Result := rfl
@[simp] theorem popTurn_serRetryMax : (popTurn s).serRetryMax = s.serRetryMax := rfl
@[simp] theorem popTurn_serAttempts : (popTurn s).serAttempts = s.serAttempts := rfl
@[simp] theorem popTurn_cmdLast : (popTurn s).cmdLast = s.cmdLast := rfl
@[simp] theorem popTurn_tab : (popTurn s).tab = s.tab := rfl
@[simp] theorem popTurn_phase : (popTurn s).phase = s.phase := rfl
@[simp] theorem popTurn_pend : (popTurn s).pend = s.pend := rfl
@[simp] theorem popTurn_marks : (popTurn s).marks = s.marks := rfl
@[simp] theorem popTurn_mem : (popTurn s).mem = s.mem := rfl
@[simp] theorem popTurn_supply : (popTurn s).supply = s.supply := rfl
@[simp] theorem popTurn_drawCount : (popTurn s).drawCount = s.drawCount := rfl
@[simp] theorem popTurn_drawPos : (popTurn s).drawPos = s.drawPos := rfl
@[simp] theorem popTurn_frees : (popTurn s).frees = s.frees := rfl
@[simp] theorem popTurn_params : (popTurn s).params = s.params := rfl
@[simp] theorem popTurn_agenda : (popTurn s).agenda = s.agenda.tail := rfl
@[simp] theorem popTurn_answers : (popTurn s).answers = s.answers := rfl

end Sys2Proof.Machine
end

