-- ==== Sys2Proof/Laws/Command.lean ====
section
/-! SUPPORT. The checks of a command as propositions about addresses, and everything that its first engine step can do. -/

namespace Sys2Proof.Machine

/-! ### The checks -/

theorem loaded_iff (i : Instr) (s : State) : Loaded i s ↔ (needsReady i = true → s.ready = true) := by
  cases i <;> simp [Loaded, needsReady]

theorem tabled_iff (i : Instr) (s : State) : Tabled i s ↔ (needsTable i = true → s.tvalid = true) := by
  cases i <;> simp [Tabled, needsTable]

theorem admits_iff (i : Instr) (s : State) : admits s.params (footprint i s) = true ↔ Admitted i s := by
  simp only [admits, List.all_eq_true, List.mem_append, regionAdmitted_iff, Admitted, Touches, Reads, Writes]
  constructor
  · rintro h a (⟨r, hr, ha⟩ | ⟨r, hr, ha⟩)
    · exact h r (.inl hr) a ha
    · exact h r (.inr hr) a ha
  · rintro h r (hr | hr) a ha
    · exact h a (.inl ⟨r, hr, ha⟩)
    · exact h a (.inr ⟨r, hr, ha⟩)

theorem crossKeyOverlap_iff (i : Instr) (s : State) :
    crossKeyOverlap i s = true ↔ ∃ v k, i = .getenc v k ∧ v ≠ k ∧ ∃ a,
      (s.scr.toNat ≤ a ∧ a < s.scr.toNat + Config.plainSize) ∧ (s.dst.toNat ≤ a ∧ a < s.dst.toNat + Config.encSize) := by
  cases i with
  | getenc v k =>
    simp only [crossKeyOverlap, Bool.and_eq_true, bne_iff_ne, ne_eq, meets_iff, inRegion_iff, imageRegion]
    constructor
    · rintro ⟨hne, a, ha⟩
      exact ⟨v, k, rfl, hne, a, ha⟩
    · rintro ⟨v', k', he, hne, a, ha⟩
      cases he
      exact ⟨hne, a, ha⟩
  | _ => simp [crossKeyOverlap]

theorem overlaps_iff (i : Instr) (s : State) : overlaps i s = false ↔ Separate i s := by
  rw [← Bool.not_eq_true]
  simp only [overlaps, Bool.or_eq_true, Bool.and_eq_true, meetsAny_iff, crossKeyOverlap_iff]
  constructor
  · intro h
    refine ⟨fun a hw hr => h (.inl (.inl ⟨a, hw, hr⟩)), ?_, fun hs a hw hi => h (.inr ⟨hs, a, hw, hi⟩)⟩
    intro v k hi hne a ha
    exact h (.inl (.inr ⟨v, k, hi, hne, a, ha⟩))
  · rintro ⟨h₁, h₂, h₃⟩ ((⟨a, hw, hr⟩ | ⟨v, k, hi, hne, a, ha⟩) | ⟨hs, a, hw, hi⟩)
    · exact h₁ a hw hr
    · exact h₂ v k hi hne a ha
    · exact h₃ hs a hw hi

/-- The ordered checks, in one equation over propositions (40_control.md R94). -/
theorem firstFailure_eq (i : Instr) (s : State) :
    firstFailure i s =
      open Classical in
      if ¬ Loaded i s then some .notLoaded
      else if ¬ Tabled i s then some .noTable
      else if ¬ Admitted i s then some .busError
      else if ¬ Separate i s then some .overlap
      else none := by
  have h₁ : (needsReady i && !s.ready) = true ↔ ¬ Loaded i s := by rw [loaded_iff]; simp
  have h₂ : (needsTable i && !s.tvalid) = true ↔ ¬ Tabled i s := by rw [tabled_iff]; simp
  have h₃ : (!admits s.params (footprint i s)) = true ↔ ¬ Admitted i s := by rw [← admits_iff]; simp
  have h₄ : overlaps i s = true ↔ ¬ Separate i s := by rw [← overlaps_iff]; simp
  classical exact if_congr h₁ rfl (if_congr h₂ rfl (if_congr h₃ rfl (if_congr h₄ rfl rfl)))

theorem firstFailure_none_iff (i : Instr) (s : State) : firstFailure i s = none ↔ Clear i s := by
  rw [firstFailure_eq]
  constructor
  · intro h
    split at h
    · cases h
    · split at h
      · cases h
      · split at h
        · cases h
        · split at h
          · cases h
          · exact ⟨not_not.mp ‹_›, not_not.mp ‹_›, not_not.mp ‹_›, not_not.mp ‹_›⟩
  · rintro ⟨h₁, h₂, h₃, h₄⟩
    simp [h₁, h₂, h₃, h₄]

/-! ### What a first step accesses -/

/-- The regions that the first step of each command accesses once its checks have passed. -/
def accessed (i : Instr) (s : State) : List Region :=
  match i with
  | .serenc => serencAccesses s
  | _ => (footprint i s).rd ++ (footprint i s).wr

/-- Every command but SERENC accesses its whole footprint. -/
theorem accessed_eq {i : Instr} (h : i ≠ .serenc) (s : State) : accessed i s = (footprint i s).rd ++ (footprint i s).wr := by
  cases i <;> first | rfl | exact absurd rfl h

theorem accessed_iff (i : Instr) (s : State) (a : Nat) : (∃ r ∈ accessed i s, inRegion r a = true) ↔ Accesses i s a := by
  by_cases hi : i = .serenc
  · subst hi
    by_cases hs : skips s = true
    · simp [accessed, serencAccesses, Accesses, Reads, Writes, hs, or_and_right, exists_or]
    · simp [accessed, serencAccesses, Accesses, Reads, Writes, hs]
  · simp [accessed_eq hi, Accesses, Reads, Writes, hi, or_and_right, exists_or]

theorem honest_iff (i : Instr) (s : State) : refuses s.params (accessed i s) = false ↔ Honest i s := by
  rw [← Bool.not_eq_true, refuses_iff]
  simp only [Honest, ← accessed_iff]
  constructor
  · rintro h a ⟨r, hr, ha⟩ q hq
    by_contra hc
    exact h ⟨a, ⟨q, hq, by simpa using hc⟩, r, hr, ha⟩
  · rintro h ⟨a, ⟨q, hq, hqa⟩, hr⟩
    simp [h a hr q hq] at hqa

theorem honest_of_refusing_nil {i : Instr} {s : State} (h : s.params.refusing = []) : Honest i s := by
  simp [Honest, h]

/-! ### The first engine step -/

/-- The effect of each command once its checks have passed. -/
def effectOf : Instr → State → State
  | .nop => complete .ok
  | .ldtab => ldtabEffect
  | .decblk adv => decblkEffect adv
  | .encblk adv => encblkEffect adv
  | .decimg => decimgEffect
  | .encimg k => encimgEffect k
  | .getenc v k => getencEffect v k
  | .crc32v => crc32vEffect
  | .keychk => keychkEffect
  | .serdec => serdecEffect
  | .serenc => serencEffect

/-- Every command runs in the same frame. -/
theorem exec_eq (i : Instr) (s : State) : exec i s = runAccessing i (accessed i s) (effectOf i) s := by
  cases i <;> rfl

theorem exec_of_clear {i : Instr} {s : State} (hc : Clear i s) (hh : Honest i s) : exec i s = .next (effectOf i s) := by
  simp [exec_eq, runAccessing, (firstFailure_none_iff i s).mpr hc, (honest_iff i s).mpr hh]

theorem exec_of_failure {i : Instr} {s : State} {e : ErrCode} (h : firstFailure i s = some e) :
    exec i s = .next (complete e s) := by
  simp [exec_eq, runAccessing, h]

/-- The stuck engine: its turn changes nothing (20_memory.md R60). -/
theorem exec_of_dishonest {i : Instr} {s : State} (hc : Clear i s) (hh : ¬ Honest i s) : exec i s = .next s := by
  rw [← honest_iff, Bool.not_eq_false] at hh
  simp [exec_eq, runAccessing, (firstFailure_none_iff i s).mpr hc, hh]

/-- Everything a first engine step can do: a check fails, the effect happens, or the engine is stuck. -/
theorem exec_next {i : Instr} {s t : State} (h : exec i s = .next t) :
    (∃ e, firstFailure i s = some e ∧ t = complete e s) ∨ (Clear i s ∧ Honest i s ∧ t = effectOf i s) ∨
    (Clear i s ∧ ¬ Honest i s ∧ t = s) := by
  cases hf : firstFailure i s with
  | some e => exact .inl ⟨e, rfl, (Host.Outcome.next.inj ((exec_of_failure hf).symm.trans h)).symm⟩
  | none =>
    have hc := (firstFailure_none_iff i s).mp hf
    by_cases hh : Honest i s
    · exact .inr (.inl ⟨hc, hh, (Host.Outcome.next.inj ((exec_of_clear hc hh).symm.trans h)).symm⟩)
    · exact .inr (.inr ⟨hc, hh, (Host.Outcome.next.inj ((exec_of_dishonest hc hh).symm.trans h)).symm⟩)

/-- A first engine step always answers a next state. -/
theorem exec_total (i : Instr) (s : State) : ∃ t, exec i s = .next t := ⟨_, exec_eq i s⟩

/-- A failed check is one of four (R94). -/
theorem firstFailure_some {i : Instr} {s : State} {e : ErrCode} (h : firstFailure i s = some e) :
    e = .notLoaded ∨ e = .noTable ∨ e = .busError ∨ e = .overlap := by
  simp only [firstFailure] at h
  split at h
  · simp_all
  · split at h
    · simp_all
    · split at h
      · simp_all
      · split at h <;> simp_all

/-! ### The attempt step of SERENC -/

theorem length_attemptRecord (w : SerWork) (s : State) : (attemptRecord w s).length = 80 := by
  simp [attemptRecord, regenerate, slice, Config.serDraws, Config.serRandLo, Config.serCrcLo]

theorem accepts_iff (w : SerWork) (s : State) : accepts w s = true ↔ (attemptCrc w s).toNat < 0x2000 := by
  rw [accepts, decide_eq_true_iff, Config.serThresh]

/-- The platform refuses the output of an accepted record (20_memory.md R60). -/
theorem refusesOutput_iff (s : State) : refuses s.params [⟨s.dst.toNat, Config.serLen⟩] = true ↔
    ∃ j < 80, ∃ h ∈ s.params.refusing, inRegion h (s.dst.toNat + j) = true := by
  simp only [refuses_iff, List.mem_singleton, exists_eq_left, inRegion_iff (r := ⟨_, _⟩), Config.serLen]
  constructor
  · rintro ⟨a, ⟨q, hq, hqa⟩, h₁, h₂⟩
    exact ⟨a - s.dst.toNat, by omega, q, hq, by rwa [Nat.add_sub_cancel' h₁]⟩
  · rintro ⟨j, hj, q, hq, hqa⟩
    exact ⟨_, ⟨q, hq, hqa⟩, by omega, by omega⟩

/-- An attempt as one equation over its CRC. -/
theorem attemptSerenc_eq (w : SerWork) (s : State) : attemptSerenc w s = .next (
    if (attemptCrc w s).toNat < 0x2000 then
      if refuses s.params [⟨s.dst.toNat, Config.serLen⟩] then s
      else storeRecord (sealRecord (attemptRecord w s) (attemptCrc w s)) w.key.toList (satIncr w.n) (settleDraws w s)
    else if budgetSpent s.serRetryMax (satIncr w.n) then
      complete .retryBudget (setAttempts (satIncr w.n) (settleDraws w s))
    else enterLoop { w with buf := record (attemptRecord w s), n := satIncr w.n, drawn := w.drawn + Config.serDraws }
      (consumeDraws Config.serDraws 0 s)) := by
  simp only [attemptSerenc, accepts_iff]

/-- Everything an attempt can do: store, be stuck, give up, go on. -/
theorem attemptSerenc_next {w : SerWork} {s t : State} (h : attemptSerenc w s = .next t) :
    (accepts w s = true ∧ refuses s.params [⟨s.dst.toNat, Config.serLen⟩] = false ∧
      t = storeRecord (sealRecord (attemptRecord w s) (attemptCrc w s)) w.key.toList (satIncr w.n) (settleDraws w s)) ∨
    (accepts w s = true ∧ refuses s.params [⟨s.dst.toNat, Config.serLen⟩] = true ∧ t = s) ∨
    (accepts w s = false ∧ budgetSpent s.serRetryMax (satIncr w.n) = true ∧
      t = complete .retryBudget (setAttempts (satIncr w.n) (settleDraws w s))) ∨
    (accepts w s = false ∧ budgetSpent s.serRetryMax (satIncr w.n) = false ∧
      t = enterLoop { w with buf := record (attemptRecord w s), n := satIncr w.n, drawn := w.drawn + Config.serDraws }
        (consumeDraws Config.serDraws 0 s)) := by
  have h := Host.Outcome.next.inj h
  cases ha : accepts w s <;> rw [ha] at h
  · cases hb : budgetSpent s.serRetryMax (satIncr w.n) <;> rw [hb] at h
    · exact .inr (.inr (.inr ⟨rfl, rfl, h.symm⟩))
    · exact .inr (.inr (.inl ⟨rfl, rfl, h.symm⟩))
  · cases hr : refuses s.params [⟨s.dst.toNat, Config.serLen⟩] <;> rw [hr] at h
    · exact .inl ⟨rfl, rfl, h.symm⟩
    · exact .inr (.inl ⟨rfl, rfl, h.symm⟩)

/-! ### Steps -/

/-- Everything one step can do: a host turn, a reset turn, or one of the engine's. -/
theorem step_next {s t : State} (h : step s = .next t) :
    (∃ op, nextTurn s = .host op ∧ t = hostTurn op (popTurn s)) ∨
    (nextTurn s = .reset ∧ t = resetTurn (popTurn s)) ∨
    (nextTurn s = .engine ∧ s.phase = .idle ∧ t = popTurn s) ∨
    (nextTurn s = .engine ∧ s.phase = .pending ∧ decode s.pend = none ∧ t = complete .illegalCmd (popTurn s)) ∨
    (nextTurn s = .engine ∧ s.phase = .pending ∧ ∃ i, decode s.pend = some i ∧ exec i (popTurn s) = .next t) ∨
    (nextTurn s = .engine ∧ ∃ w, s.phase = .serloop w ∧ attemptSerenc w (popTurn s) = .next t) := by
  rw [step] at h
  cases hn : nextTurn s with
  | host op =>
    rw [hn] at h
    exact .inl ⟨op, rfl, (Host.Outcome.next.inj h).symm⟩
  | reset =>
    rw [hn] at h
    exact .inr (.inl ⟨rfl, (Host.Outcome.next.inj h).symm⟩)
  | engine =>
    rw [hn] at h
    simp only [takeTurn, engineTurn, popTurn_phase, popTurn_pend] at h
    cases hp : s.phase with
    | idle =>
      rw [hp] at h
      exact .inr (.inr (.inl ⟨rfl, rfl, (Host.Outcome.next.inj h).symm⟩))
    | pending =>
      rw [hp] at h
      cases hd : decode s.pend with
      | none =>
        rw [hd] at h
        exact .inr (.inr (.inr (.inl ⟨rfl, rfl, rfl, (Host.Outcome.next.inj h).symm⟩)))
      | some i =>
        rw [hd] at h
        exact .inr (.inr (.inr (.inr (.inl ⟨rfl, rfl, i, rfl, h⟩))))
    | serloop w =>
      rw [hp] at h
      exact .inr (.inr (.inr (.inr (.inr ⟨rfl, w, rfl, h⟩))))

/-- Every step answers a next state. -/
theorem step_total (s : State) : ∃ t, step s = .next t := by
  rw [step]
  cases nextTurn s with
  | host op => exact ⟨_, rfl⟩
  | reset => exact ⟨_, rfl⟩
  | engine =>
    simp only [takeTurn, engineTurn]
    split
    · exact ⟨_, rfl⟩
    · split
      · exact exec_total _ _
      · exact ⟨_, rfl⟩
    · exact ⟨_, rfl⟩

end Sys2Proof.Machine
end

