-- ==== Sys2Proof/Laws/Effects.lean ====
section
/-! SUPPORT. The effect of each command as one record update: what it writes, and that it writes nothing else. -/

namespace Sys2Proof.Machine

variable (s : State)

theorem ldtabEffect_eq : ldtabEffect s = { s with
    tab := extractTable s.mem s.img.toNat, tvalid := true
    errcode := 0#4, done := true, cmdLast := s.pend, phase := .idle } := rfl

theorem decblkEffect_eq (adv : Bool) : decblkEffect adv s = { s with
    mem := Memory.write s.mem s.dst.toNat (decBlock (Memory.bytes s.mem s.src.toNat Config.cblk) s.tab s.idx)
    idx := (if adv then s.idx + 4#8 else s.idx)
    errcode := 0#4, done := true, cmdLast := s.pend, phase := .idle } := rfl

theorem encblkEffect_eq (adv : Bool) : encblkEffect adv s = { s with
    mem := Memory.write s.mem s.dst.toNat
      (encBlock (Memory.bytes s.mem s.src.toNat Config.pblk) (draws Config.pad s) s.tab s.idx)
    idx := (if adv then s.idx + 4#8 else s.idx)
    supply := s.supply.drop Config.pad, drawPos := s.drawPos + Config.pad, drawCount := s.drawCount + Config.pad
    errcode := 0#4, done := true, cmdLast := s.pend, phase := .idle } := rfl

/-- What `decryptTo` stores (44_firmware_codec.md R122). -/
def decrypted (b : Nat) : Bytes :=
  decImage (Memory.bytes s.mem b Config.encSize) (extractTable s.mem b) s.params.decInit

/-- What `encryptTo` stores (R123). -/
def encrypted (p b : Nat) : Bytes :=
  encImage (Memory.bytes s.mem p Config.plainSize) (draws imageDraws s) (extractTable s.mem b) s.params.encInit

theorem decryptTo_eq (b d : Nat) : decryptTo b d s = { s with
    tab := extractTable s.mem b, mem := Memory.write s.mem d (decrypted s b) } := rfl

theorem encryptTo_eq (p b d : Nat) : encryptTo p b d s = { s with
    tab := extractTable s.mem b, mem := Memory.write s.mem d (encrypted s p b)
    supply := s.supply.drop imageDraws, drawPos := s.drawPos + imageDraws, drawCount := s.drawCount + imageDraws } := rfl

theorem decimgEffect_eq : decimgEffect s = { s with
    tab := extractTable s.mem s.src.toNat, tvalid := true
    mem := Memory.write s.mem s.dst.toNat (decrypted s s.src.toNat)
    errcode := 0#4, done := true, cmdLast := s.pend, phase := .idle } := by
  rw [decimgEffect, decryptTo_eq]
  rfl

theorem encimgEffect_eq (k : Variant) : encimgEffect k s = { s with
    tab := extractTable s.mem (imgSel k s), tvalid := true
    mem := Memory.write s.mem s.dst.toNat (encrypted s s.src.toNat (imgSel k s))
    supply := s.supply.drop imageDraws, drawPos := s.drawPos + imageDraws, drawCount := s.drawCount + imageDraws
    errcode := 0#4, done := true, cmdLast := s.pend, phase := .idle } := by
  rw [encimgEffect, encryptTo_eq]
  rfl

theorem getencEffect_same (v : Variant) : getencEffect v v s = { s with
    mem := Memory.write s.mem s.dst.toNat (Memory.bytes s.mem (imgSel v s) Config.encSize)
    errcode := 0#4, done := true, cmdLast := s.pend, phase := .idle } := by
  simp only [getencEffect, if_true]
  rfl

theorem getencEffect_cross {v k : Variant} (h : v ≠ k) : getencEffect v k s = { s with
    tab := extractTable (decryptTo (imgSel v s) s.scr.toNat s).mem (imgSel k s), tvalid := true
    mem := Memory.write (decryptTo (imgSel v s) s.scr.toNat s).mem s.dst.toNat
      (encrypted (decryptTo (imgSel v s) s.scr.toNat s) s.scr.toNat (imgSel k s))
    supply := s.supply.drop imageDraws, drawPos := s.drawPos + imageDraws, drawCount := s.drawCount + imageDraws
    errcode := 0#4, done := true, cmdLast := s.pend, phase := .idle } := by
  rw [getencEffect, if_neg h, encryptTo_eq]
  rfl

theorem crc32vEffect_match (h : crc32Value s.params.crc32Poly s.crc32Seed (Memory.bytes s.mem s.src.toNat s.len.toNat) = s.crc32Expect) :
    crc32vEffect s = { s with
      crc32Result := s.crc32Expect, crcok := true, errcode := 0#4, done := true, cmdLast := s.pend, phase := .idle } := by
  rw [crc32vEffect, if_pos h, h]
  rfl

theorem crc32vEffect_mismatch (h : crc32Value s.params.crc32Poly s.crc32Seed (Memory.bytes s.mem s.src.toNat s.len.toNat) ≠ s.crc32Expect) :
    crc32vEffect s = { s with
      crc32Result := crc32Value s.params.crc32Poly s.crc32Seed (Memory.bytes s.mem s.src.toNat s.len.toNat)
      crcok := false, errcode := 2#4, done := true, cmdLast := s.pend, phase := .idle } := by
  rw [crc32vEffect, if_neg h]
  rfl

theorem complete_setCrc16 (c : Half) (ok : Bool) : complete .ok (setCrc16 c ok s) = { s with
    crc16Result := c, recok := ok, errcode := 0#4, done := true, cmdLast := s.pend, phase := .idle } := rfl

theorem keychkEffect_eq : keychkEffect s = { s with
    crc16Result := recordCrc s.params (Memory.bytes s.mem s.src.toNat Config.serLen)
    recok := decide (recordCrc s.params (Memory.bytes s.mem s.src.toNat Config.serLen) = 0#16)
    errcode := 0#4, done := true, cmdLast := s.pend, phase := .idle } := complete_setCrc16 s _ _

theorem serdecEffect_eq : serdecEffect s = { s with
    mem := Memory.write s.mem s.dst.toNat
      (serDecrypt (Memory.bytes s.mem (s.img.toNat + Config.serialRecordOffset) Config.serLen) (serKey s.mem s.params s.img.toNat))
    errcode := 0#4, done := true, cmdLast := s.pend, phase := .idle } := rfl

theorem storeRecord_eq (B K : Bytes) (n : Word) : storeRecord B K n s = { s with
    mem := Memory.write s.mem s.dst.toNat (serEncrypt B K), serAttempts := n
    errcode := 0#4, done := true, cmdLast := s.pend, phase := .idle } := rfl

theorem skips_iff : skips s = true ↔ recordCrc s.params (Memory.bytes s.mem s.src.toNat Config.serLen) = 0#16 := by
  rw [skips, beq_iff_eq]

theorem serencEffect_skip (h : skips s = true) :
    serencEffect s =
      storeRecord (Memory.bytes s.mem s.src.toNat Config.serLen) (serKey s.mem s.params s.img.toNat) 0#32 s := by
  rw [serencEffect, if_pos h]

theorem serencEffect_loop (h : ¬ skips s = true) :
    serencEffect s = enterLoop
      { buf := record (Memory.bytes s.mem s.src.toNat Config.serLen)
        key := record (serKey s.mem s.params s.img.toNat), n := 0#32, drawn := 0 } s := by
  rw [serencEffect, if_neg h]

/-! ### Lengths of what is stored -/

@[simp] theorem length_xorSeq (X K : Bytes) : (xorSeq X K).length = X.length := by simp [xorSeq]

@[simp] theorem length_serDecrypt (S K : Bytes) : (serDecrypt S K).length = S.length := by simp [serDecrypt]

@[simp] theorem length_serEncrypt (B K : Bytes) : (serEncrypt B K).length = B.length := by simp [serEncrypt]

@[simp] theorem length_serKey (m : Memory) (p : Params) (b : Nat) : (serKey m p b).length = 80 := by
  simp [serKey, Config.serLen]

/-- The serial index never wraps (45_serial_record.md R129). -/
theorem serKey_eq (m : Memory) (p : Params) (b : Nat) : serKey m p b = Memory.bytes m (b + p.serTabOff.val + 10) 80 :=
  bytes_ext (by simp) fun i h => by
    rw [length_serKey] at h
    rw [Memory.byteAt_bytes h, serKey, byteAt_seqOf, Config.serLen, if_pos h, Config.serIdx0,
      Nat.mod_eq_of_lt (by omega), Nat.add_assoc (b + p.serTabOff.val) 10 i]

/-- Blocks of one length, one after the other. -/
theorem length_flatMap_range {n l : Nat} {f : Nat → Bytes} (h : ∀ k < n, (f k).length = l) :
    ((List.range n).flatMap f).length = l * n := by
  induction n with
  | zero => simp
  | succ n ih =>
    rw [List.range_succ, List.flatMap_append, List.length_append, ih fun k hk => h k (by omega)]
    simp [h n (by omega), Nat.mul_succ]

/-- Byte `j` of block `k`. -/
theorem byteAt_flatMap_range {n l : Nat} {f : Nat → Bytes} (h : ∀ k < n, (f k).length = l) {k j : Nat} (hk : k < n) (hj : j < l) :
    byteAt ((List.range n).flatMap f) (l * k + j) = byteAt (f k) j := by
  induction n with
  | zero => omega
  | succ n ih =>
    have hl := length_flatMap_range (n := n) (f := f) fun k hk => h k (by omega)
    rw [List.range_succ, List.flatMap_append, byteAt_append, hl]
    rcases Nat.lt_or_ge k n with hkn | hkn
    · have : l * k + j < l * n := by
        have := Nat.mul_le_mul_left l (Nat.succ_le_of_lt hkn)
        rw [Nat.mul_succ] at this
        omega
      rw [if_pos this, ih (fun k hk => h k (by omega)) hkn]
    · obtain rfl : k = n := by omega
      rw [if_neg (by omega)]
      simp

theorem length_decImage {S : Bytes} (hS : S.length = Config.encSize) (T : Vector Byte 256) (init : Byte) :
    (decImage S T init).length = Config.plainSize := by
  rw [decImage, length_flatMap_range (l := 64)]
  · rfl
  · intro k hk
    rw [Config.nblk] at hk
    exact length_decBlock (length_slice (by rw [hS, Config.encSize, Config.cblk]; omega)) _ _

theorem length_encImage {P R : Bytes} (hP : P.length = Config.plainSize) (hR : R.length = imageDraws) (T : Vector Byte 256)
    (init : Byte) : (encImage P R T init).length = Config.encSize := by
  rw [encImage, length_flatMap_range (l := 80)]
  · rfl
  · intro k hk
    rw [Config.nblk] at hk
    have hR' : R.length = 30976 := hR
    rw [length_encBlock, length_slice (by rw [hP, Config.plainSize, Config.pblk]; omega),
      length_slice (by rw [hR', Config.pad]; omega)]
    rfl

@[simp] theorem length_decrypted (b : Nat) : (decrypted s b).length = Config.plainSize :=
  length_decImage (by simp) _ _

@[simp] theorem length_encrypted (p b : Nat) : (encrypted s p b).length = Config.encSize :=
  length_encImage (by simp) (by simp) _ _

/-- Byte `16 k + j` of an extracted table (43_xor_table.md R115). -/
theorem tabAt_extractTable (m : Memory) (b : Nat) {k j : Nat} (hk : k < 16) (hj : j < 16) :
    tabAt (extractTable m b) (BitVec.ofNat 8 (16 * k + j)) = ~~~ Memory.read m (b + 0x1EEDF + 320 * k + j) := by
  have hm : (BitVec.ofNat 8 (16 * k + j)).toNat = 16 * k + j := by
    rw [BitVec.toNat_ofNat]
    exact Nat.mod_eq_of_lt (by omega)
  have hd : (16 * k + j) / 16 = k := by omega
  have hr : (16 * k + j) % 16 = j := by omega
  simp only [tabAt, extractTable, getElem_vecOf, hm, Config.winLen, Config.winStride, Config.xorTableRegion, hd, hr]

end Sys2Proof.Machine
end

