-- ==== Sys2Proof/Laws/Host.lean ====
section
/-! SUPPORT. Laws of the host's and reset's turns: the set of hazards, the bytes a reset leaves to chance, the register map. -/

namespace Sys2Proof.Machine

/-! ### The set of hazards -/

theorem mem_insertSorted {a x : Nat} {xs : List Nat} : x ∈ insertSorted a xs ↔ x = a ∨ x ∈ xs := by
  induction xs with
  | nil => simp [insertSorted]
  | cons y ys ih =>
    simp only [insertSorted]
    split
    · simp
    · split
      · subst a
        simp
      · simp [ih, or_left_comm]

/-- Adding an address keeps the canonical form. -/
theorem pairwise_insertSorted {a : Nat} {xs : List Nat} (h : xs.Pairwise (· < ·)) : (insertSorted a xs).Pairwise (· < ·) := by
  induction xs with
  | nil => simp [insertSorted]
  | cons y ys ih =>
    obtain ⟨hy, hys⟩ := List.pairwise_cons.mp h
    simp only [insertSorted]
    split
    · refine List.pairwise_cons.mpr ⟨fun z hz => ?_, h⟩
      rcases List.mem_cons.mp hz with rfl | hz
      · assumption
      · exact Nat.lt_trans ‹_› (hy z hz)
    · split
      · exact h
      · refine List.pairwise_cons.mpr ⟨fun z hz => ?_, ih hys⟩
        rcases mem_insertSorted.mp hz with rfl | hz
        · omega
        · exact hy z hz

/-! ### The bytes a reset leaves to chance -/

/-- The part of a region that exists ends at the top of the address space. -/
theorem clip_le (r : Region) : (clip r).len = 0 ∨ r.base + (clip r).len ≤ Config.addrTop := by
  simp only [clip]
  omega

/-- A reset keeps the canonical form of memory. -/
theorem wf_scramble {m : Memory} (hm : Memory.wf m) (k : Nat) (rs : List Region) : Memory.wf (scramble m k rs) := by
  induction rs generalizing m k with
  | nil => exact hm
  | cons r rs ih =>
    refine ih (Memory.wf_write hm ?_) _
    rcases clip_le r with h | h
    · exact .inl (List.eq_nil_of_length_eq_zero (by rw [length_freeBytes, h]))
    · exact .inr (by rw [length_freeBytes]; exact h)

/-- A reset changes no byte outside the regions. -/
theorem read_scramble {m : Memory} {k a : Nat} {rs : List Region} (h : ∀ r ∈ rs, inRegion r a = false) :
    Memory.read (scramble m k rs) a = Memory.read m a := by
  induction rs generalizing m k with
  | nil => rfl
  | cons r rs ih =>
    rw [scramble, ih fun q hq => h q (List.mem_cons_of_mem _ hq)]
    refine Memory.read_write_out ?_
    have hr := h r (List.mem_cons_self ..)
    rw [← Bool.not_eq_true, inRegion_iff] at hr
    rw [length_freeBytes]
    simp only [clip]
    omega

/-! ### The register map -/

/-- Reset memory is in canonical form. -/
theorem wf_reset : Memory.wf State.reset.mem := ⟨.nil, by simp [State.reset], by simp [State.reset]⟩

/-- The offsets the map names, and no others. -/
theorem slotAt_eq (off : Nat) (h : 0x048 ≤ off) : slotAt off = if 0x100 ≤ off ∧ off < 0x200 then .tab ((off - 0x100) / 4) else .unmapped := by
  have : registerMap.lookup off = none := by
    rw [List.lookup_eq_none_iff]
    intro p hp
    have hlt : ∀ q ∈ registerMap, q.1 < 0x048 := by decide
    have := hlt p hp
    simp
    omega
  simp [slotAt, this]

end Sys2Proof.Machine
end

