-- ==== Sys2Proof/Laws/PerInstr.lean ====
section
/-! SUPPORT. Statements about every command, one lemma per constructor. -/

namespace Sys2Proof.Laws.FieldsLegal

/-- The fields of a command pass the checks of 30_encoding.md R79 and R80, whatever its operands. -/
def Statement (i : Instr) : Prop := i.wellFormed = true

theorem nop : Statement .nop := by unfold Statement; decide
theorem ldtab : Statement .ldtab := by unfold Statement; decide
theorem decblk (adv : Bool) : Statement (.decblk adv) := by unfold Statement; cases adv <;> decide
theorem encblk (adv : Bool) : Statement (.encblk adv) := by unfold Statement; cases adv <;> decide
theorem decimg : Statement .decimg := by unfold Statement; decide
theorem encimg (key : Variant) : Statement (.encimg key) := by unfold Statement; cases key <;> decide
theorem getenc (var key : Variant) : Statement (.getenc var key) := by unfold Statement; cases var <;> cases key <;> decide
theorem crc32v : Statement .crc32v := by unfold Statement; decide
theorem keychk : Statement .keychk := by unfold Statement; decide
theorem serdec : Statement .serdec := by unfold Statement; decide
theorem serenc : Statement .serenc := by unfold Statement; decide

end Sys2Proof.Laws.FieldsLegal
end

