-- ==== Sys2Proof/Laws/Steps.lean ====
section
/-! SUPPORT. Taking the next turn off the agenda changes nothing that a command reads; whose turn it is; what every effect leaves
alone. -/

namespace Sys2Proof.Machine

variable {s : State} {i : Instr}

/-! ### The turn taken off the agenda -/

theorem footprint_popTurn : footprint i (popTurn s) = footprint i s := by cases i <;> rfl

theorem firstFailure_popTurn : firstFailure i (popTurn s) = firstFailure i s := by cases i <;> rfl

theorem clear_popTurn : Clear i (popTurn s) ↔ Clear i s := by
  rw [← firstFailure_none_iff, firstFailure_popTurn, firstFailure_none_iff]

theorem accessed_popTurn : accessed i (popTurn s) = accessed i s := by cases i <;> rfl

theorem honest_popTurn : Honest i (popTurn s) ↔ Honest i s := by
  rw [← honest_iff, accessed_popTurn, ← honest_iff]
  rfl

/-! ### Whose turn it is -/

theorem nextTurn_engine_iff : nextTurn s = .engine ↔ EngineMoves s := by
  rw [nextTurn, EngineMoves]
  cases s.agenda <;> simp

theorem nextTurn_reset_iff : nextTurn s = .reset ↔ Resets s := by
  rw [nextTurn, Resets]
  cases s.agenda <;> simp

theorem step_engine (h : EngineMoves s) : step s = engineTurn (popTurn s) := by
  rw [step, nextTurn_engine_iff.mpr h]
  rfl

theorem step_pending (h : EngineMoves s) (hp : s.phase = .pending) (hd : decode s.pend = some i) : step s = exec i (popTurn s) := by
  rw [step_engine h]
  simp [engineTurn, hp, hd]

theorem step_serloop {w : SerWork} (h : EngineMoves s) (hp : s.phase = .serloop w) : step s = attemptSerenc w (popTurn s) := by
  rw [step_engine h]
  simp [engineTurn, hp]

theorem step_illegal (h : EngineMoves s) (hp : s.phase = .pending) (hd : decode s.pend = none) :
    step s = .next (complete .illegalCmd (popTurn s)) := by
  rw [step_engine h]
  simp [engineTurn, hp, hd, execIllegal]

theorem step_idle (h : EngineMoves s) (hp : s.phase = .idle) : step s = .next (popTurn s) := by
  rw [step_engine h]
  simp [engineTurn, hp]

theorem step_host {op : HostOp} {rest : List Turn} (h : s.agenda = .host op :: rest) : step s = .next (hostTurn op (popTurn s)) := by
  simp [step, nextTurn, h, takeTurn]

theorem step_reset {rest : List Turn} (h : s.agenda = .reset :: rest) : step s = .next (resetTurn (popTurn s)) := by
  simp [step, nextTurn, h, takeTurn]

/-! ### What every effect leaves alone -/

/-- The fields that no command writes. -/
structure SameInputs (s t : State) : Prop where
  ovr : t.ovr = s.ovr
  ready : t.ready = s.ready
  ie : t.ie = s.ie
  src : t.src = s.src
  dst : t.dst = s.dst
  img : t.img = s.img
  imga : t.imga = s.imga
  imgcs : t.imgcs = s.imgcs
  scr : t.scr = s.scr
  len : t.len = s.len
  crc32Seed : t.crc32Seed = s.crc32Seed
  crc32Expect : t.crc32Expect = s.crc32Expect
  serRetryMax : t.serRetryMax = s.serRetryMax
  pend : t.pend = s.pend
  marks : t.marks = s.marks
  frees : t.frees = s.frees
  params : t.params = s.params
  agenda : t.agenda = s.agenda
  answers : t.answers = s.answers

theorem sameInputs_complete (e : ErrCode) (s : State) : SameInputs s (complete e s) := by constructor <;> rfl

/-- A command that completes changes only its results, `T`, `M`, the draws, and what `complete` writes. -/
theorem sameInputs_effectOf (i : Instr) (s : State) : SameInputs s (effectOf i s) := by
  cases i with
  | nop => exact sameInputs_complete _ _
  | ldtab => rw [effectOf, ldtabEffect_eq]; constructor <;> rfl
  | decblk adv => rw [effectOf, decblkEffect_eq]; constructor <;> rfl
  | encblk adv => rw [effectOf, encblkEffect_eq]; constructor <;> rfl
  | decimg => rw [effectOf, decimgEffect_eq]; constructor <;> rfl
  | encimg k => rw [effectOf, encimgEffect_eq]; constructor <;> rfl
  | getenc v k =>
    by_cases h : v = k
    · subst h
      rw [effectOf, getencEffect_same]
      constructor <;> rfl
    · rw [effectOf, getencEffect_cross s h]
      constructor <;> rfl
  | crc32v =>
    rw [effectOf]
    by_cases h : crc32Value s.params.crc32Poly s.crc32Seed (Memory.bytes s.mem s.src.toNat s.len.toNat) = s.crc32Expect
    · rw [crc32vEffect_match s h]
      constructor <;> rfl
    · rw [crc32vEffect_mismatch s h]
      constructor <;> rfl
  | keychk => rw [effectOf, keychkEffect_eq]; constructor <;> rfl
  | serdec => rw [effectOf, serdecEffect_eq]; constructor <;> rfl
  | serenc =>
    rw [effectOf]
    by_cases h : skips s = true
    · rw [serencEffect_skip s h, storeRecord_eq]
      constructor <;> rfl
    · rw [serencEffect_loop s h]
      constructor <;> rfl

/-- What `complete` leaves: an idle engine that has completed the word in `PEND`. -/
structure Completed (s t : State) : Prop where
  phase : t.phase = .idle
  done : t.done = true
  cmdLast : t.cmdLast = s.pend

theorem completed_complete (e : ErrCode) (s : State) : Completed s (complete e s) := by constructor <;> rfl

/-- Every command but SERENC completes in its first step (40_control.md R93). -/
theorem completed_effectOf {i : Instr} (hi : i ≠ .serenc) (s : State) : Completed s (effectOf i s) := by
  cases i with
  | nop => exact completed_complete _ _
  | ldtab => rw [effectOf, ldtabEffect_eq]; constructor <;> rfl
  | decblk adv => rw [effectOf, decblkEffect_eq]; constructor <;> rfl
  | encblk adv => rw [effectOf, encblkEffect_eq]; constructor <;> rfl
  | decimg => rw [effectOf, decimgEffect_eq]; constructor <;> rfl
  | encimg k => rw [effectOf, encimgEffect_eq]; constructor <;> rfl
  | getenc v k =>
    by_cases h : v = k
    · subst h
      rw [effectOf, getencEffect_same]
      constructor <;> rfl
    · rw [effectOf, getencEffect_cross s h]
      constructor <;> rfl
  | crc32v =>
    rw [effectOf]
    by_cases h : crc32Value s.params.crc32Poly s.crc32Seed (Memory.bytes s.mem s.src.toNat s.len.toNat) = s.crc32Expect
    · rw [crc32vEffect_match s h]
      constructor <;> rfl
    · rw [crc32vEffect_mismatch s h]
      constructor <;> rfl
  | keychk => rw [effectOf, keychkEffect_eq]; constructor <;> rfl
  | serdec => rw [effectOf, serdecEffect_eq]; constructor <;> rfl
  | serenc => exact absurd rfl hi

/-! ### What a command stores -/

/-- A store of one write region keeps the canonical form and changes no byte outside the write footprint. -/
theorem write_in_footprint {i : Instr} {s : State} (hc : Clear i s) {m : Memory} {b n : Nat} {X : Bytes} (hm : Memory.wf m)
    (hl : X.length = n) (hn : 0 < n) (hr : ⟨b, n⟩ ∈ (footprint i s).wr) :
    Memory.wf (Memory.write m b X) ∧ ∀ a, ¬ Writes i s a → Memory.read (Memory.write m b X) a = Memory.read m a := by
  have h := (hc.admitted (b + n - 1) (.inr ⟨_, hr, by simp; omega⟩)).1
  refine ⟨Memory.wf_write hm (.inr (by omega)), fun a ha => Memory.read_write_out ?_⟩
  by_contra hcon
  exact ha ⟨_, hr, by simp; omega⟩

/-- A command whose checks pass keeps the canonical form of memory and stores in its write footprint alone (20_memory.md R59). -/
theorem mem_effectOf {i : Instr} {s : State} (hc : Clear i s) (hm : Memory.wf s.mem) :
    Memory.wf (effectOf i s).mem ∧ ∀ a, ¬ Writes i s a → Memory.read (effectOf i s).mem a = Memory.read s.mem a := by
  cases i with
  | nop => exact ⟨hm, fun _ _ => rfl⟩
  | ldtab =>
    rw [effectOf, ldtabEffect_eq]
    exact ⟨hm, fun _ _ => rfl⟩
  | decblk adv =>
    rw [effectOf, decblkEffect_eq]
    exact write_in_footprint hc (n := 64) hm (length_decBlock (by simp; rfl) _ _) (by decide) (by simp [footprint]; rfl)
  | encblk adv =>
    rw [effectOf, encblkEffect_eq]
    exact write_in_footprint hc (n := 80) hm (by simp; rfl) (by decide) (by simp [footprint]; rfl)
  | decimg =>
    rw [effectOf, decimgEffect_eq]
    exact write_in_footprint hc hm (length_decrypted _ _) (by decide) (by simp [footprint])
  | encimg k =>
    rw [effectOf, encimgEffect_eq]
    exact write_in_footprint hc hm (length_encrypted _ _ _) (by decide) (by simp [footprint, imageRegion])
  | getenc v k =>
    by_cases h : v = k
    · subst h
      rw [effectOf, getencEffect_same]
      exact write_in_footprint hc hm (Memory.length_bytes _ _ _) (by decide) (by simp [footprint, imageRegion])
    · rw [effectOf, getencEffect_cross s h]
      have h₁ := write_in_footprint hc (b := s.scr.toNat) hm (length_decrypted s (imgSel v s)) (by decide) (by simp [footprint, h])
      have h₂ := write_in_footprint hc (b := s.dst.toNat) h₁.1
        (length_encrypted (decryptTo (imgSel v s) s.scr.toNat s) s.scr.toNat (imgSel k s)) (by decide)
        (by simp [footprint, h, imageRegion])
      exact ⟨h₂.1, fun a ha => (h₂.2 a ha).trans (h₁.2 a ha)⟩
  | crc32v =>
    rw [effectOf]
    by_cases h : crc32Value s.params.crc32Poly s.crc32Seed (Memory.bytes s.mem s.src.toNat s.len.toNat) = s.crc32Expect
    · rw [crc32vEffect_match s h]
      exact ⟨hm, fun _ _ => rfl⟩
    · rw [crc32vEffect_mismatch s h]
      exact ⟨hm, fun _ _ => rfl⟩
  | keychk =>
    rw [effectOf, keychkEffect_eq]
    exact ⟨hm, fun _ _ => rfl⟩
  | serdec =>
    rw [effectOf, serdecEffect_eq]
    exact write_in_footprint hc (n := 80) hm (by simp; rfl) (by decide) (by simp [footprint]; rfl)
  | serenc =>
    rw [effectOf]
    by_cases h : skips s = true
    · rw [serencEffect_skip s h, storeRecord_eq]
      exact write_in_footprint hc (n := 80) hm (by simp; rfl) (by decide) (by simp [footprint]; rfl)
    · rw [serencEffect_loop s h]
      exact ⟨hm, fun _ _ => rfl⟩

/-- What an accepted attempt stores is 80 bytes long (45_serial_record.md R136). -/
theorem length_serEncrypt_sealed (w : SerWork) (s : State) (c : Half) (K : Bytes) :
    (serEncrypt (sealRecord (attemptRecord w s) c) K).length = 80 := by
  simp [sealRecord, length_slice, length_attemptRecord, Config.serCrcLo]

end Sys2Proof.Machine
end

