-- ==== Sys2Proof/Tests/Slice0.lean ====
section
/-! SUPPORT. Tests: ill-formed fields that WellFormed refuses, command words written out from 30_encoding.md, small vectors of
95_test_vectors.md, and for each statement with hypotheses a state that meets them. -/

namespace Sys2Proof.Tests

open Sys2Proof Sys2Proof.Machine

set_option Elab.async false

/-! ### WellFormed smoke: each check refuses an ill-formed term -/

theorem test_wf_reserved_opcode : (CmdFields.mk 0x0B#8 false false false 0#21).opLegal = false := by decide
theorem test_wf_last_opcode : (CmdFields.mk 0xFF#8 false false false 0#21).wellFormed = false := by decide
theorem test_wf_reserved_bits : (CmdFields.mk 0x00#8 false false false 0x100000#21).rsvLegal = false := by decide
theorem test_wf_adv_unused : (CmdFields.mk 0x01#8 true false false 0#21).advLegal = false := by decide
theorem test_wf_var_unused : (CmdFields.mk 0x05#8 false true false 0#21).varLegal = false := by decide
theorem test_wf_key_unused : (CmdFields.mk 0x04#8 false false true 0#21).keyLegal = false := by decide
theorem test_wf_all_fields_used : (CmdFields.mk 0x06#8 false true true 0#21).wellFormed = true := by decide

/-! ### Decoding: words written out bit by bit from R77 and R78 (RSV | KEY | VAR | ADV | OP) -/

theorem test_decode_nop : decode 0b000000000000000000000_0_0_0_00000000#32 = some .nop := by decide
theorem test_decode_ldtab : decode 0b000000000000000000000_0_0_0_00000001#32 = some .ldtab := by decide
theorem test_decode_decblk : decode 0b000000000000000000000_0_0_0_00000010#32 = some (.decblk false) := by decide
theorem test_decode_decblk_adv : decode 0b000000000000000000000_0_0_1_00000010#32 = some (.decblk true) := by decide
theorem test_decode_encblk : decode 0b000000000000000000000_0_0_0_00000011#32 = some (.encblk false) := by decide
theorem test_decode_encblk_adv : decode 0b000000000000000000000_0_0_1_00000011#32 = some (.encblk true) := by decide
theorem test_decode_decimg : decode 0b000000000000000000000_0_0_0_00000100#32 = some .decimg := by decide
theorem test_decode_encimg_a : decode 0b000000000000000000000_0_0_0_00000101#32 = some (.encimg .a) := by decide
theorem test_decode_encimg_cs : decode 0b000000000000000000000_1_0_0_00000101#32 = some (.encimg .cs) := by decide
theorem test_decode_getenc_var_cs : decode 0b000000000000000000000_0_1_0_00000110#32 = some (.getenc .cs .a) := by decide
theorem test_decode_getenc_key_cs : decode 0b000000000000000000000_1_0_0_00000110#32 = some (.getenc .a .cs) := by decide
theorem test_decode_crc32v : decode 0b000000000000000000000_0_0_0_00000111#32 = some .crc32v := by decide
theorem test_decode_keychk : decode 0b000000000000000000000_0_0_0_00001000#32 = some .keychk := by decide
theorem test_decode_serdec : decode 0b000000000000000000000_0_0_0_00001001#32 = some .serdec := by decide
theorem test_decode_serenc : decode 0b000000000000000000000_0_0_0_00001010#32 = some .serenc := by decide

/-- R97's illegal words, and the reason each is illegal (R80). -/
theorem test_decode_reserved : (decodeWord 0x0000000B#32).toOption = none ∧ decode 0x000000FF#32 = none := by decide
theorem test_decode_unused_adv : decode 0x00000101#32 = none := by decide
theorem test_decode_unused_var : decode 0x00000204#32 = none := by decide
theorem test_decode_unused_key : decode 0x00000402#32 = none := by decide
theorem test_decode_rsv_low : decode 0x00000800#32 = none := by decide
theorem test_decode_rsv_high : decode 0x80000000#32 = none := by decide
theorem test_decode_table_word : decodeTableWord 32 0x606 = some (.getenc .cs .cs) := by decide

/-! ### Functions: vectors of 95_test_vectors.md V1, V2, V3 -/

/-- "123456789". -/
def digits : Bytes := [0x31#8, 0x32#8, 0x33#8, 0x34#8, 0x35#8, 0x36#8, 0x37#8, 0x38#8, 0x39#8]

/-- The table `Ti[i] = i` (V3). -/
def idTable : Vector Byte 256 := vecOf 256 fun i => BitVec.ofNat 8 i

/-- V1.1 -/
theorem test_crc32_check : crc32Value 0xEDB88320#32 0xFFFFFFFF#32 digits = 0xCBF43926#32 := by decide +kernel
/-- V1.11 -/
theorem test_crc16_init : crc16 0xA001#16 0xFFFF#16 digits = 0x4B37#16 := by decide +kernel
/-- V2, n = 8 -/
theorem test_mirror_eight : mirror4 [0#8, 1#8, 2#8, 3#8, 4#8, 5#8, 6#8, 7#8] = [7#8, 1#8, 2#8, 3#8, 4#8, 5#8, 6#8, 0#8] := by
  decide +kernel
/-- V2 -/
theorem test_shr3 : shr3 [0xFF#8, 0x00#8, 0x81#8] = [0x1F#8, 0xE0#8, 0x10#8] := by decide +kernel
/-- V2 -/
theorem test_shl3 : shl3 [0xFF#8, 0x00#8, 0x81#8] = [0xF8#8, 0x04#8, 0x08#8] := by decide +kernel
/-- V2 -/
theorem test_xor_rot_wraps : xorRot [0#8, 0#8, 0#8, 0#8] idTable 0xFE#8 = [0xFE#8, 0xFF#8, 0x00#8, 0x01#8] := by decide +kernel

/-! ### States for the tests and the witnesses -/

/-- The reference parameters of 41_checksum.md R104; `DEC_INIT`, `ENC_INIT` and `SER_TAB_OFF` are 0. -/
def params : Params := ⟨0#8, 0#8, 0, 0xEDB88320#32, 0xA001#16, 0#16, [], []⟩

/-- A state with every buffer apart from every other, READY and TVALID set, and this command pending. -/
def ready (i : Instr) : State := { State.reset with
  params := params, ready := true, tvalid := true, phase := .pending, pend := encode i
  src := 0x00100000#32, dst := 0x00200000#32, img := 0x00300000#32
  imga := 0x00400000#32, imgcs := 0x00500000#32, scr := 0x00600000#32 }

/-- The same with a host turn next. -/
def hosted (op : HostOp) (s : State) : State := { s with agenda := [.host op] }

/-- The same, idle. -/
def idle : State := { ready .nop with phase := .idle }

/-- A SERENC in its loop, with these draws in hand. -/
def looping (max : Word) (R : List Byte) : State := { ready .serenc with
  phase := .serloop ⟨record [], record [], 0#32, 0⟩, serRetryMax := max, supply := R }

/-- 46 draws: zeros, then `b`. -/
def rolls (b : Byte) : List Byte := List.replicate 45 0#8 ++ [b]

/-- An outcome is a next state with this property. -/
def gives (o : Host.Outcome State Fault Refusal) (p : State → Bool) : Bool :=
  match o with
  | .next t => p t
  | .fault _ => false
  | .refused _ => false

theorem exists_of_gives {o : Host.Outcome State Fault Refusal} {p : State → Bool} (h : gives o p = true) :
    ∃ t, o = .next t ∧ p t = true := by
  cases o with
  | next t => exact ⟨t, rfl, h⟩
  | fault e => cases h
  | refused r => cases h

theorem clear_of {i : Instr} {s : State} (h : firstFailure i s = none) : Clear i s := (firstFailure_none_iff i s).mp h

theorem clear_ready : ∀ i, Clear i (ready i)
  | .nop => clear_of (by decide)
  | .ldtab => clear_of (by decide +kernel)
  | .decblk false => clear_of (by decide +kernel)
  | .decblk true => clear_of (by decide +kernel)
  | .encblk false => clear_of (by decide +kernel)
  | .encblk true => clear_of (by decide +kernel)
  | .decimg => clear_of (by decide +kernel)
  | .encimg .a => clear_of (by decide +kernel)
  | .encimg .cs => clear_of (by decide +kernel)
  | .getenc .a .a => clear_of (by decide +kernel)
  | .getenc .a .cs => clear_of (by decide +kernel)
  | .getenc .cs .a => clear_of (by decide +kernel)
  | .getenc .cs .cs => clear_of (by decide +kernel)
  | .crc32v => clear_of (by decide +kernel)
  | .keychk => clear_of (by decide +kernel)
  | .serdec => clear_of (by decide +kernel)
  | .serenc => clear_of (by decide +kernel)

theorem honest_ready (i : Instr) : Honest i (ready i) := honest_of_refusing_nil rfl

theorem starts_ready (i : Instr) : Starts i (ready i) := by
  refine ⟨.inl rfl, rfl, ?_⟩
  cases i with
  | decblk adv => cases adv <;> decide
  | encblk adv => cases adv <;> decide
  | encimg k => cases k <;> decide
  | getenc v k => cases v <;> cases k <;> decide
  | _ => decide

/-! ### The commands, one engine step each -/

/-- R96: NOP clears ERRCODE. -/
theorem test_nop : gives (step { ready .nop with errcode := 6#4 }) (fun t => t.errcode == 0#4 && t.done && t.cmdLast == 0#32) = true := by
  decide +kernel

/-- V4, window 0: the raw byte 0x30 loads as 0xCF. -/
theorem test_ldtab : gives (step { ready .ldtab with mem := [(0x31EEDF, 0x30#8)], tvalid := false })
    (fun t => tabAt t.tab 0#8 == 0xCF#8 && t.tvalid) = true := by decide +kernel

/-- V3 B5, its first bytes. -/
theorem test_decblk : gives (step { ready (.decblk true) with tab := idTable })
    (fun t => Memory.bytes t.mem 0x200000 8 == [0xC9#8, 0x00#8, 0x20#8, 0x40#8, 0x49#8, 0x80#8, 0xA0#8, 0xC0#8] && t.idx == 4#8) = true := by
  decide +kernel

/-- V3 B8: the index wraps. -/
theorem test_decblk_index_wraps : gives (step { ready (.decblk true) with idx := 0xFC#8 }) (fun t => t.idx == 0#8) = true := by
  decide +kernel

/-- V3 B1, its first and last bytes: P = 00..3F, draws A0..AF, T all zero. -/
theorem test_encblk : gives (step { ready (.encblk false) with
      mem := Memory.write [] 0x100000 (seqOf 64 fun i => BitVec.ofNat 8 i), supply := seqOf 16 fun i => BitVec.ofNat 8 (0xA0 + i) })
    (fun t => Memory.bytes t.mem 0x200000 4 == [0x78#8, 0x08#8, 0x10#8, 0x1D#8]
      && Memory.bytes t.mem 0x20004E 2 == [0x70#8, 0x00#8] && t.drawCount == 16) = true := by decide +kernel

/-- R122: the table is that of the input image. -/
theorem test_decimg : gives (step { ready .decimg with mem := [(0x11EEDF, 0x30#8)], tvalid := false })
    (fun t => tabAt t.tab 0#8 == 0xCF#8 && t.tvalid && t.errcode == 0#4) = true := by decide +kernel

/-- R123: the table is that of the key image, and 30976 draws are consumed. -/
theorem test_encimg : gives (step { ready (.encimg .cs) with mem := [(0x51EEDF, 0x30#8)] })
    (fun t => tabAt t.tab 0#8 == 0xCF#8 && t.drawCount == 30976) = true := by decide +kernel

/-- R125's example: with READY = 0 the command completes with code 3. -/
theorem test_getenc_not_loaded : gives (step { ready (.getenc .a .a) with ready := false }) (fun t => t.errcode == 3#4) = true := by
  decide +kernel

/-- R125: the identity case copies the stored image, here its byte 5. -/
theorem test_getenc_copies :
    Memory.read (getencEffect .cs .cs { ready (.getenc .cs .cs) with mem := [(0x500005, 0xAB#8)] }).mem 0x200005 = 0xAB#8 := by
  rw [getencEffect_same]
  exact (Memory.read_write_in (i := 5) (by rw [Memory.length_bytes]; decide)).trans
    ((Memory.byteAt_bytes (by decide)).trans (by decide +kernel))

/-- The command forms of V1. -/
theorem test_crc32v : gives (step { ready .crc32v with mem := Memory.write [] 0x100000 digits, len := 9#32, crc32Expect := 0xCBF43926#32 })
    (fun t => t.crc32Result == 0xCBF43926#32 && t.crcok && statusWord t == 0x00000602#32) = true := by decide +kernel

theorem test_crc32v_mismatch : gives (step { ready .crc32v with mem := Memory.write [] 0x100000 digits, len := 9#32, tvalid := false })
    (fun t => t.crc32Result == 0xCBF43926#32 && statusWord t == 0x00000022#32) = true := by decide +kernel

theorem crcByte_zero (n : Nat) : (List.replicate n 0#8).foldl (crcByte 0xA001#16) 0#16 = 0#16 := by
  induction n with
  | zero => rfl
  | succ n ih =>
    rw [List.replicate_succ, List.foldl_cons, show crcByte 0xA001#16 0#16 0#8 = 0#16 by decide +kernel, ih]

/-- Zero bytes leave the register at 0, so the CRC is that of the last byte alone. -/
theorem crc_last (n : Nat) (b : Byte) : recordCrc params (List.replicate n 0#8 ++ [b]) = crcByte 0xA001#16 0#16 b := by
  rw [recordCrc, crc16, List.foldl_append]
  exact congrArg (fun c => crcByte 0xA001#16 c b) (crcByte_zero n)

/-- V1.14 -/
theorem crc_last_one : crcByte 0xA001#16 0#16 0x01#8 = 0xC0C1#16 := by decide +kernel
theorem crc_last_zero : crcByte 0xA001#16 0#16 0x00#8 = 0x0000#16 := by decide +kernel

/-- A record of 79 zero bytes and a last byte `b` at SRC. -/
theorem crc_record {s : State} {b : Byte} (hp : s.params = params)
    (hm : Memory.bytes s.mem s.src.toNat 80 = List.replicate 79 0#8 ++ [b]) :
    recordCrc s.params (Memory.bytes s.mem s.src.toNat Config.serLen) = crcByte 0xA001#16 0#16 b := by
  rw [hp, Config.serLen, hm, crc_last]

/-- V1.16: the all-zero record is valid. -/
theorem test_keychk_valid : (keychkEffect (ready .keychk)).recok = true ∧ (keychkEffect (ready .keychk)).crc16Result = 0#16 := by
  rw [keychkEffect_eq, crc_record (b := 0#8) rfl (by decide +kernel), crc_last_zero]
  exact ⟨rfl, rfl⟩

/-- V1.14, after 79 zero bytes: a record with a CRC other than 0 is a result, no error. -/
theorem test_keychk_invalid : let t := keychkEffect { ready .keychk with mem := [(0x10004F, 1#8)] }
    t.recok = false ∧ t.crc16Result = 0xC0C1#16 ∧ t.errcode = 0#4 := by
  dsimp only
  rw [keychkEffect_eq, crc_record (b := 1#8) rfl (by decide +kernel), crc_last_one]
  exact ⟨rfl, rfl, rfl⟩

/-- The normalised record of V7 S1: "ABCDEFGH", "0123456789ABCDEFGHIJKLMN", the third attempt's draws, the CRC. -/
def s1Record : Bytes := seqOf 80 fun i => BitVec.ofNat 8
  (if i < 8 then 0x41 + i else if i < 18 then 0x28 + i else if i < 32 then 0x2F + i else if i < 78 then 0x3E + i else if i = 78 then 0x39 else 0x16)

/-- V7 S1: the first bytes of the encrypted record, under its key `30 33 36 ..`. -/
theorem test_ser_encrypt_key : (serEncrypt s1Record (seqOf 80 fun i => BitVec.ofNat 8 (0x30 + 3 * i))).take 8 =
    [0x82#8, 0x21#8, 0x2C#8, 0x1D#8, 0x76#8, 0x0D#8, 0x78#8, 0x01#8] := by decide +kernel

/-- V7 S4. -/
theorem test_serdec : gives (step { ready .serdec with mem := Memory.write [] 0x31FD00 (List.replicate 80 0xFF#8) })
    (fun t => Memory.bytes t.mem 0x20004E 2 == [0xFF#8, 0x1F#8]) = true := by decide +kernel

/-- V7 S3: the all-zero record takes the skip path. -/
theorem test_serenc_skip : (serencEffect (ready .serenc)).phase = .idle ∧ (serencEffect (ready .serenc)).serAttempts = 0#32 := by
  rw [serencEffect_skip _ ((skips_iff _).mpr ((crc_record (b := 0#8) rfl (by decide +kernel)).trans crc_last_zero))]
  exact ⟨rfl, rfl⟩

/-- The CRC of the attempt in `looping` is that of its last draw. -/
theorem crc_attempt (max : Word) {b : Byte}
    (hb : slice (attemptRecord ⟨record [], record [], 0#32, 0⟩ (looping 0#32 (rolls b))) 0 78 = List.replicate 77 0#8 ++ [b]) :
    attemptCrc ⟨record [], record [], 0#32, 0⟩ (popTurn (looping max (rolls b))) = crcByte 0xA001#16 0#16 b := by
  have h : attemptCrc ⟨record [], record [], 0#32, 0⟩ (popTurn (looping max (rolls b))) =
    recordCrc params (slice (attemptRecord ⟨record [], record [], 0#32, 0⟩ (looping 0#32 (rolls b))) 0 78) := rfl
  rw [h, hb, crc_last]

theorem step_looping (max : Word) (R : List Byte) :
    step (looping max R) = attemptSerenc ⟨record [], record [], 0#32, 0⟩ (popTurn (looping max R)) := step_serloop (.inl rfl) rfl

/-- R135 and R136: an accepted attempt stores the record and completes. -/
theorem test_serenc_accepts :
    gives (step (looping 0#32 (rolls 0#8))) (fun t => t.phase == .idle && t.errcode == 0#4 && t.serAttempts == 1#32) = true := by
  rw [step_looping, attemptSerenc_eq, crc_attempt 0#32 (by decide +kernel), crc_last_zero]
  rfl

/-- R135, V7 S1b: a rejected attempt that uses up the budget ends with code 7. -/
theorem test_serenc_budget :
    gives (step (looping 1#32 (rolls 1#8))) (fun t => t.phase == .idle && t.errcode == 7#4 && t.serAttempts == 1#32 && t.drawCount == 46) = true := by
  rw [step_looping, attemptSerenc_eq, crc_attempt 1#32 (by decide +kernel), crc_last_one]
  rfl

/-- R135: with budget 0 the loop goes on. -/
theorem test_serenc_goes_on : gives (step (looping 0#32 (rolls 1#8))) (fun t => busy t && t.serAttempts == 0#32 && t.drawCount == 0 && t.drawPos == 46) = true := by
  rw [step_looping, attemptSerenc_eq, crc_attempt 0#32 (by decide +kernel), crc_last_one]
  rfl

/-- B11 and B14: the ordered checks. -/
theorem test_overlap : gives (step { ready (.decblk false) with src := 0x1000#32, dst := 0x1010#32 }) (fun t => t.errcode == 6#4) = true := by
  decide +kernel
theorem test_bus_error : gives (step { ready (.decblk false) with src := 0xFFFFFFC0#32 }) (fun t => t.errcode == 5#4) = true := by
  decide +kernel

/-- The host's check: each row of the table runs as the first command after reset. -/
theorem test_first_commands : ([0x0, 0x1, 0x2, 0x3, 0x4, 0x5, 0x6, 0x7, 0x8, 0x9, 0xA].all fun w =>
    gives (step (State.reset.withFetchWord 32 w)) fun _ => true) = true := by decide +kernel

/-! ### Witnesses: for each statement with hypotheses, a state and operands that meet them together; one for each clause -/

/-- A state of the tests meets the invariant. -/
theorem inv_ready (i : Instr) : BteInv (ready i) where
  memory := ⟨.nil, by simp [ready, State.reset], by simp [ready, State.reset]⟩
  code := (by decide : (0#4).toNat ≤ 7)
  hazards := .nil
  busy_not_done := fun _ => rfl
  recok_zero := fun h => by cases h
  loop_command := fun _ h => by cases h
  loop_budget := fun _ h => by cases h

theorem witness_DecodeAndEncodeAgree : ∃ w i, decode w = some i := ⟨0x606#32, .getenc .cs .cs, by decide⟩

theorem witness_StepRunsTheDecodedCommand :
    (∃ s i, EngineMoves s ∧ s.phase = .pending ∧ decode s.pend = some i) ∧
    (∃ s w, EngineMoves s ∧ s.phase = .serloop w) ∧ ∃ s, EngineMoves s ∧ s.phase = .idle :=
  ⟨⟨_, _, starts_ready .nop⟩, ⟨looping 0#32 [], _, .inl rfl, rfl⟩, ⟨idle, .inl rfl, rfl⟩⟩

theorem witness_ChecksFailInTheStatedOrder :
    (∃ s, EngineMoves s ∧ s.phase = .pending ∧ decode s.pend = none) ∧
    (∃ i s, EngineMoves s ∧ s.phase = .pending ∧ decode s.pend = some i ∧ ¬ Loaded i s) ∧
    (∃ i s, EngineMoves s ∧ s.phase = .pending ∧ decode s.pend = some i ∧ Loaded i s ∧ ¬ Tabled i s) ∧
    (∃ i s, EngineMoves s ∧ s.phase = .pending ∧ decode s.pend = some i ∧ Loaded i s ∧ Tabled i s ∧ ¬ Admitted i s) ∧
    (∃ i s, EngineMoves s ∧ s.phase = .pending ∧ decode s.pend = some i ∧ Loaded i s ∧ Tabled i s ∧ Admitted i s ∧ ¬ Separate i s) := by
  refine ⟨⟨{ ready .nop with pend := 0x0B#32 }, .inl rfl, rfl, by decide⟩,
    ⟨.encimg .a, { ready (.encimg .a) with ready := false }, .inl rfl, rfl, by decide, ?_⟩,
    ⟨.decblk false, { ready (.decblk false) with tvalid := false }, .inl rfl, rfl, by decide, ?_, ?_⟩,
    ⟨.crc32v, { ready .crc32v with src := 0xFFFFFFFF#32, len := 2#32 }, .inl rfl, rfl, by decide, ?_, ?_, ?_⟩,
    ⟨.decblk false, { ready (.decblk false) with dst := 0x0010004F#32 }, .inl rfl, rfl, by decide, ?_, ?_, ?_, ?_⟩⟩
  · exact fun h => by simpa using h (.inl ⟨.a, rfl⟩)
  · exact fun h => by simp at h
  · exact fun h => by simpa using h (.inl ⟨false, rfl⟩)
  · exact fun h => by simp at h
  · exact fun h => by simp at h
  · exact fun h => absurd ((admits_iff _ _).mpr h) (by decide +kernel)
  · exact fun h => by simp at h
  · exact fun _ => rfl
  · exact (admits_iff _ _).mp (by decide +kernel)
  · exact fun h => absurd ((overlaps_iff _ _).mpr h) (by decide +kernel)

/-- The boundaries of those clauses pass: the last admitted byte, and a destination just after the source (V3 B12). -/
theorem witness_checks_pass_at_the_boundary :
    Clear .crc32v { ready .crc32v with src := 0xFFFFFFFF#32, len := 1#32 } ∧
    Clear (.decblk false) { ready (.decblk false) with dst := 0x00100050#32 } :=
  ⟨clear_of (by decide +kernel), clear_of (by decide +kernel)⟩

theorem witness_EveryOtherCommandCompletesAtOnce : ∃ s i, Starts i s ∧ i ≠ .serenc ∧ Honest i s :=
  ⟨_, .decimg, starts_ready _, by decide, honest_ready _⟩

/-- A platform that refuses one byte which admission allowed. -/
def refusing (a : Nat) : Params := { params with refusing := [⟨a, 1⟩] }

/-- R60: KEYCHK whose last record byte is refused never completes, and the host still reads STATUS. -/
theorem test_stuck : gives (step { ready .keychk with params := refusing 0x0010004F }) (fun t => busy t && !t.done && t.drawCount == 0) = true ∧
    gives (step (hosted (.regRead 0x004 32) { ready .keychk with params := refusing 0x0010004F })) (fun t => t.answers == [.word 0x201#32]) = true := by
  decide +kernel

/-- R134: the loop path of SERENC makes no access to DST, so a platform that refuses DST does not hinder it. -/
theorem test_serenc_enters_the_loop : let s := { ready .serenc with mem := [(0x10004F, 1#8)], params := refusing 0x00200000 }
    Honest .serenc s ∧ (serencEffect s).phase ≠ .idle := by
  have h : ¬ skips { ready .serenc with mem := [(0x10004F, 1#8)], params := refusing 0x00200000 } = true := by
    rw [skips_iff]
    intro h
    have := (crc_last 79 1#8).symm.trans ((congrArg (recordCrc params) (by decide +kernel)).trans h)
    rw [crc_last_one] at this
    cases this
  refine ⟨(honest_iff _ _).mp ?_, ?_⟩
  · rw [accessed, serencAccesses, if_neg h]
    decide +kernel
  · rw [serencEffect_loop _ h]
    exact fun h => by cases h

theorem skips_refusing : skips { ready .serenc with params := refusing 0x0020004F } = true :=
  (skips_iff _).mpr (((congrArg (recordCrc params) (by decide +kernel)).trans (crc_last 79 0#8)).trans crc_last_zero)

/-- The first clause: KEYCHK, and SERENC on the skip path. The second: an accepted attempt with its last output byte refused. -/
theorem witness_OnlyABrokenPromiseStops :
    (∃ s, s.phase = .pending ∧ Clear .keychk s ∧ ¬ Honest .keychk s) ∧
    (∃ s, s.phase = .pending ∧ Clear .serenc s ∧ ¬ Honest .serenc s) ∧
    ∃ w s, s.phase = .serloop w ∧ (attemptCrc w s).toNat < 0x2000 ∧
      ∃ j < 80, ∃ h ∈ s.params.refusing, inRegion h (s.dst.toNat + j) = true := by
  refine ⟨⟨{ ready .keychk with params := refusing 0x0010004F }, rfl, clear_of (by decide +kernel), fun h => ?_⟩,
    ⟨{ ready .serenc with params := refusing 0x0020004F }, rfl, clear_of (by decide +kernel), fun h => ?_⟩,
    ⟨_, { looping 0#32 (rolls 0#8) with params := refusing 0x0020004F }, rfl, ?_, 79, by decide, _, List.mem_cons_self .., by decide +kernel⟩⟩
  · exact absurd ((honest_iff _ _).mpr h) (by decide +kernel)
  · exact absurd (h 0x0020004F (.inr ⟨⟨_, List.mem_cons_self .., by decide +kernel⟩, fun _ => skips_refusing⟩) _ (List.mem_cons_self ..))
      (by decide +kernel)
  · have h : attemptCrc ⟨record [], record [], 0#32, 0⟩ { looping 0#32 (rolls 0#8) with params := refusing 0x0020004F } =
      attemptCrc ⟨record [], record [], 0#32, 0⟩ (popTurn (looping 0#32 (rolls 0#8))) := rfl
    rw [h, crc_attempt 0#32 (by decide +kernel), crc_last_zero]
    decide

theorem witness_ErrorCodesAreTheMatrix :
    (∃ i s t, s.phase = .pending ∧ exec i s = .next t ∧ t.phase = .idle) ∧
    (∃ w s t, s.phase = .serloop w ∧ attemptSerenc w s = .next t ∧ t.phase = .idle ∧ t.errcode = 0#4) ∧
    ∃ w s t, s.phase = .serloop w ∧ attemptSerenc w s = .next t ∧ t.phase = .idle ∧ t.errcode = 7#4 := by
  refine ⟨⟨.nop, ready .nop, _, rfl, exec_of_clear (clear_ready _) (honest_ready _), rfl⟩, ?_, ?_⟩
  · obtain ⟨t, ht, hp⟩ := exists_of_gives (step_looping 0#32 (rolls 0#8) ▸ test_serenc_accepts)
    simp only [Bool.and_eq_true, beq_iff_eq] at hp
    exact ⟨_, _, t, rfl, ht, hp.1.1, hp.1.2⟩
  · obtain ⟨t, ht, hp⟩ := exists_of_gives (step_looping 1#32 (rolls 1#8) ▸ test_serenc_budget)
    simp only [Bool.and_eq_true, beq_iff_eq] at hp
    exact ⟨_, _, t, rfl, ht, hp.1.1.1, hp.1.1.2⟩

theorem witness_NopOnlyCompletes : ∃ s : State, decode s.pend = some .nop := ⟨ready .nop, by decide⟩

theorem witness_FootprintsAreTheTable : (∃ v k : Variant, v ≠ k) ∧ ∃ s : State, decode s.pend = none :=
  ⟨⟨.a, .cs, by decide⟩, { ready .nop with pend := 0x800#32 }, by decide⟩

theorem witness_Crc32vReportsTheComparison :
    (∃ s, Clear .crc32v s ∧ Honest .crc32v s ∧ s.len = 0#32 ∧
      ~~~ crc32Update s.params.crc32Poly s.crc32Seed (Memory.bytes s.mem s.src.toNat s.len.toNat) = s.crc32Expect) ∧
    ∃ s, Clear .crc32v s ∧ Honest .crc32v s ∧
      ~~~ crc32Update s.params.crc32Poly s.crc32Seed (Memory.bytes s.mem s.src.toNat s.len.toNat) ≠ s.crc32Expect :=
  ⟨⟨ready .crc32v, clear_ready _, honest_ready _, rfl, by decide +kernel⟩,
    ⟨{ ready .crc32v with len := 1#32, crc32Expect := 1#32 }, clear_of (by decide +kernel), honest_of_refusing_nil rfl, by decide +kernel⟩⟩

/-- The premises of the result statements of the other commands. -/
theorem witness_results (i : Instr) : ∃ s, Clear i s ∧ Honest i s := ⟨_, clear_ready i, honest_ready i⟩

theorem witness_KeychkReportsTheRecordCrc : ∃ s, Clear .keychk s ∧ Honest .keychk s := witness_results _
theorem witness_LdtabLoadsTheComplementedWindows : ∃ s, Clear .ldtab s ∧ Honest .ldtab s := witness_results _
theorem witness_DecblkDecryptsOneBlock : ∃ s, Clear (.decblk true) s ∧ Honest (.decblk true) s := witness_results _
theorem witness_EncblkEncryptsOneBlock : ∃ s, Clear (.encblk true) s ∧ Honest (.encblk true) s := witness_results _
theorem witness_DecimgDecryptsEveryBlock : ∃ s, Clear .decimg s ∧ Honest .decimg s := witness_results _
theorem witness_EncimgEncryptsEveryBlock : ∃ s, Clear (.encimg .cs) s ∧ Honest (.encimg .cs) s := witness_results _
theorem witness_GetencCopiesTheStoredImage : ∃ s, Clear (.getenc .a .a) s ∧ Honest (.getenc .a .a) s := witness_results _
theorem witness_GetencCrossKeysThroughTheScratch : ∃ var key s, var ≠ key ∧ Clear (.getenc var key) s ∧ Honest (.getenc var key) s :=
  ⟨.a, .cs, _, by decide, clear_ready _, honest_ready _⟩
theorem witness_SerdecDecryptsTheRecord : ∃ s, Clear .serdec s ∧ Honest .serdec s := witness_results _

theorem witness_SerencSkipsOrEntersTheLoop :
    (∃ s, Clear .serenc s ∧ Honest .serenc s ∧
      crc16 s.params.crc16Poly s.params.crc16Init (Memory.bytes s.mem s.src.toNat 80) = 0#16) ∧
    ∃ s, Clear .serenc s ∧ Honest .serenc s ∧
      crc16 s.params.crc16Poly s.params.crc16Init (Memory.bytes s.mem s.src.toNat 80) ≠ 0#16 := by
  refine ⟨⟨ready .serenc, clear_ready _, honest_ready _, ?_⟩,
    ⟨{ ready .serenc with mem := [(0x10004F, 1#8)] }, clear_of (by decide +kernel), honest_of_refusing_nil rfl, ?_⟩⟩
  · exact (crc_record (s := ready .serenc) (b := 0#8) rfl (by decide +kernel)).trans crc_last_zero
  · intro h
    have := (crc_record (s := { ready .serenc with mem := [(0x10004F, 1#8)] }) (b := 1#8) rfl (by decide +kernel)).symm.trans h
    rw [crc_last_one] at this
    cases this

/-- The four clauses: accepted, stuck, given up, gone on (45_serial_record.md R135, 20_memory.md R60). -/
theorem witness_SerencAttemptStoresStopsOrStays :
    gives (step (looping 0#32 (rolls 0#8))) (fun t => t.errcode == 0#4 && !busy t) = true ∧
    gives (step { looping 0#32 (rolls 0#8) with params := refusing 0x0020004F }) (fun t => busy t && t.drawPos == 0) = true ∧
    gives (step (looping 1#32 (rolls 1#8))) (fun t => t.errcode == 7#4) = true ∧
    gives (step (looping 2#32 (rolls 1#8))) busy = true := by
  refine ⟨?_, ?_, ?_, ?_⟩
  · rw [step_looping, attemptSerenc_eq, crc_attempt 0#32 (by decide +kernel), crc_last_zero]
    rfl
  · have h : attemptCrc ⟨record [], record [], 0#32, 0⟩ (popTurn { looping 0#32 (rolls 0#8) with params := refusing 0x0020004F }) =
      attemptCrc ⟨record [], record [], 0#32, 0⟩ (popTurn (looping 0#32 (rolls 0#8))) := rfl
    rw [step_serloop (w := ⟨record [], record [], 0#32, 0⟩) (.inl rfl) rfl, attemptSerenc_eq, h, crc_attempt 0#32 (by decide +kernel), crc_last_zero]
    rfl
  · rw [step_looping, attemptSerenc_eq, crc_attempt 1#32 (by decide +kernel), crc_last_one]
    rfl
  · rw [step_looping, attemptSerenc_eq, crc_attempt 2#32 (by decide +kernel), crc_last_one]
    rfl

theorem witness_DrawsComeInOrder : ∃ (s : State) (R rest : List Byte), R.length = 46 ∧ s.supply = R ++ rest :=
  ⟨looping 0#32 (rolls 7#8), rolls 7#8, [], by decide, rfl⟩

theorem witness_Crc32DetectsEverySingleBitFlip : ∃ (poly : Word) (X : Bytes) (k bit : Nat), poly.getLsbD 31 = true ∧ k < X.length ∧ bit < 8 :=
  ⟨0xEDB88320#32, digits, 8, 7, by decide⟩

theorem witness_MirrorSwapsTheListedPairs : ∃ X : Bytes, X.length = 80 := ⟨List.replicate 80 0#8, by simp⟩
/-- For RightShiftIsOneBitStream and LeftShiftIsOneBitStream, at the least length. -/
theorem witness_shifts : ∃ X : Bytes, 1 ≤ X.length := ⟨[0#8], by decide⟩
/-- For BlockTransformRoundTrips and EncryptedBlocksEndInZeroBits, whose second clause has `X` computed from `C`. -/
theorem witness_blocks : ∃ P R : Bytes, P.length = 64 ∧ R.length = 16 := ⟨List.replicate 64 0#8, List.replicate 16 0#8, by simp⟩
theorem witness_ReencryptionKeepsTheWindowBytes : ∃ (C R : Bytes) (j k : Nat), C.length = 80 ∧ R.length = 16 ∧ 47 ≤ j ∧ j ≤ 62 ∧ 47 ≤ k ∧ k ≤ 62 ∧ j ≠ k :=
  ⟨List.replicate 80 0#8, List.replicate 16 0#8, 47, 62, by simp⟩
theorem witness_ImageRoundTripsUnderOneTable : ∃ P R : Bytes, P.length = 0x1E400 ∧ R.length = 30976 :=
  ⟨List.replicate 0x1E400 0#8, List.replicate 30976 0#8, List.length_replicate, List.length_replicate⟩
theorem witness_EncryptedBlocksEndInZeroBits : ∃ C X : Bytes, C.length = 80 ∧ X.length = 80 ∧
    ∀ i < 80, byteAt X i = byteAt C i ^^^ tabAt idTable (0xFE#8 + BitVec.ofNat 8 i) :=
  ⟨List.replicate 80 0#8, seqOf 80 fun i => tabAt idTable (0xFE#8 + BitVec.ofNat 8 i), by simp, by simp, by decide +kernel⟩
theorem witness_SerialRecordRoundTrips : ∃ B K X : Bytes, B.length = 80 ∧ K.length = 80 ∧ X.length = 80 ∧
    ∀ i < 80, byteAt X i = byteAt B i ^^^ byteAt K i :=
  ⟨List.replicate 80 0#8, List.replicate 80 1#8, List.replicate 80 1#8, by simp, by simp, by simp, by decide +kernel⟩

theorem witness_AcceptedRecordDecryptsValid :
    ∃ s t w, EngineMoves s ∧ s.phase = .serloop w ∧ step s = .next t ∧ t.phase = .idle ∧ t.errcode = 0#4 := by
  obtain ⟨t, ht, hp⟩ := exists_of_gives test_serenc_accepts
  simp only [Bool.and_eq_true, beq_iff_eq] at hp
  exact ⟨looping 0#32 (rolls 0#8), t, _, .inl rfl, rfl, ht, hp.1.1, hp.1.2⟩

theorem witness_SerencEndsWithinItsBudget : ∃ s : State,
    s.agenda = [] ∧ s.phase = .pending ∧ decode s.pend = some .serenc ∧ s.serRetryMax ≠ 0#32 ∧ s.params.refusing = [] :=
  ⟨{ ready .serenc with serRetryMax := 0xFFFFFFFF#32 }, rfl, rfl, by decide, by decide, rfl⟩

theorem witness_IssueLatchesTheWord : ∃ (s : State) (w : Word) (rest : List Turn),
    s.agenda = .host (.regWrite 0x000 32 w) :: rest ∧ s.phase = .idle := ⟨hosted (.regWrite 0 32 0x0B#32) idle, _, _, rfl, rfl⟩

/-- A write while busy: to STATUS, to CMD, and to the last offset. -/
theorem witness_WriteWhileBusyIsDropped : ∀ off ∈ [0x004, 0x000, 0x1FC], ∃ (s : State) (w : Word) (rest : List Turn),
    s.agenda = .host (.regWrite off 32 w) :: rest ∧ s.phase ≠ .idle ∧ off % 4 = 0 ∧ off < 0x200 := by
  intro off h
  exact ⟨hosted (.regWrite off 32 0x102#32) (ready .nop), _, _, rfl, by simp [hosted, ready], by revert off; decide⟩

/-- The offsets of the clauses about a write while idle, and the two ends of its last range. -/
theorem witness_WriteWhileIdleFollowsTheMap :
    ∀ off ∈ [0x000, 0x004, 0x008, 0x00C, 0x010, 0x014, 0x018, 0x01C, 0x020, 0x024, 0x028, 0x02C, 0x030, 0x034, 0x038, 0x03C, 0x040, 0x044,
      0x048, 0x1FC], ∃ (s : State) (w : Word) (rest : List Turn),
    s.agenda = .host (.regWrite off 32 w) :: rest ∧ s.phase = .idle ∧ off % 4 = 0 ∧ off < 0x200 := by
  intro off h
  exact ⟨hosted (.regWrite off 32 1#32) idle, _, _, rfl, rfl, by revert off; decide⟩

/-- The offsets of the clauses about a read, and the ends of its ranges. -/
theorem witness_ReadFollowsTheMap :
    ∀ off ∈ [0x000, 0x004, 0x008, 0x00C, 0x010, 0x014, 0x018, 0x01C, 0x020, 0x024, 0x028, 0x02C, 0x030, 0x034, 0x038, 0x03C, 0x040, 0x044,
      0x048, 0x0FC, 0x100, 0x1FC], ∃ (s : State) (rest : List Turn),
    s.agenda = .host (.regRead off 32) :: rest ∧ off % 4 = 0 ∧ off < 0x200 := by
  intro off h
  exact ⟨hosted (.regRead off 32) (ready .nop), _, rfl, by revert off; decide⟩

theorem witness_RefusedAccessOnlyMarks :
    (∃ s : State, s.agenda = [.host (.regRead 0x004 16)] ∧ (16 ≠ 32)) ∧ (∃ s : State, s.agenda = [.host (.regWrite 0x002 32 0#32)] ∧ 0x002 % 4 ≠ 0) ∧
    ∃ s : State, s.agenda = [.host (.regWrite 0x200 32 0#32)] ∧ 0x200 ≤ 0x200 :=
  ⟨⟨hosted (.regRead 0x004 16) idle, rfl, by decide⟩, ⟨hosted (.regWrite 0x002 32 0#32) idle, rfl, by decide⟩,
    ⟨hosted (.regWrite 0x200 32 0#32) idle, rfl, by decide⟩⟩

/-- Host stores: to a busy footprint, to a stored image while READY = 1, to neither. -/
theorem witness_HostStoreRecordsItsHazard :
    gives (step (hosted (.memWrite 0x0010004F#32 1#8) (ready .keychk))) (fun t => t.marks.faults == [0x0010004F]) = true ∧
    gives (step (hosted (.memWrite 0x00425CFF#32 1#8) idle)) (fun t => t.marks.faults == [0x00425CFF]) = true ∧
    gives (step (hosted (.memWrite 0x00425D00#32 1#8) (ready .keychk))) (fun t => t.marks.faults == []) = true := by
  decide +kernel

/-- Host loads: of a byte that a busy command does not write, though it reads it. -/
theorem witness_HostLoadReturnsMemoryUnlessItRaces :
    gives (step (hosted (.memRead 0x00100000#32) { ready (.decblk false) with mem := [(0x00100000, 9#8)] }))
      (fun t => t.answers == [.byte 9#8]) = true := by decide +kernel

/-- Polling: DONE = 0 and DONE = 1. -/
theorem witness_PollingEndsAtDone :
    gives (step (hosted .waitDone (ready .nop))) (fun t => t.agenda == [.engine, .host .waitDone]) = true ∧
    gives (step (hosted .waitDone { idle with done := true })) (fun t => t.agenda == []) = true := by decide +kernel

/-- For ResetGivesTheResetValues and ResetLeavesOtherMemory. -/
theorem witness_reset : ∃ s t : State, Resets s ∧ step s = .next t :=
  ⟨{ ready .decimg with agenda := [.reset] }, _, ⟨_, rfl⟩, rfl⟩

/-- Outside the write footprint, just before it and just after it. -/
theorem witness_ResetLeavesOtherMemory :
    ((pendingFootprint (ready .decimg)).wr.any fun r => inRegion r 0x001FFFFF) = false ∧
    ((pendingFootprint (ready .decimg)).wr.any fun r => inRegion r 0x0021E400) = false := by decide +kernel

/-- R158 and I18: the draws of a SERENC that reset abandons in its loop are not counted. -/
theorem test_reset_counts_no_draw :
    gives (step { looping 0#32 [] with phase := .serloop ⟨record [], record [], 3#32, 138⟩, drawPos := 154, drawCount := 16, agenda := [.reset] })
      (fun t => t.drawCount == 16 && !busy t) = true := by decide +kernel

theorem witness_EveryStepKeepsTheInvariant : ∃ s t, BteInv s ∧ step s = .next t :=
  ⟨ready .serenc, _, inv_ready _, (step_total _).choose_spec⟩

theorem witness_EngineWritesOnlyItsWriteFootprint : ∃ s t, BteInv s ∧ EngineMoves s ∧ step s = .next t :=
  ⟨ready (.encblk true), _, inv_ready _, .inl rfl, (step_total _).choose_spec⟩

theorem witness_CommandsNeverWriteStoredImages :
    ∃ s t, BteInv s ∧ EngineMoves s ∧ s.ready = true ∧ step s = .next t ∧ ∃ a, InStoredImage s a :=
  ⟨ready .decimg, _, inv_ready _, .inl rfl, rfl, (step_total _).choose_spec, 0x400000, _, List.mem_cons_self .., by decide⟩

theorem witness_ReadyLocksTheImageBases : ∃ s t, s.ready = true ∧ ¬ Resets s ∧ step s = .next t :=
  ⟨ready .nop, _, rfl, (fun ⟨_, h⟩ => by cases h), (step_total _).choose_spec⟩

theorem witness_TableIsReplacedOnlyByLoads :
    gives (step { ready .ldtab with tvalid := false }) (fun t => t.tab != (ready .ldtab).tab && t.tvalid) = true := by decide +kernel

/-- Steps that change each of the flags and results. -/
theorem witness_FlagsAndResultsHaveTheirWriters :
    gives (step { ready .crc32v with crc32Expect := 0#32 }) (fun t => t.crcok && t.done) = true ∧
    gives (step { ready (.decblk true) with errcode := 6#4 }) (fun t => t.idx == 4#8 && t.errcode == 0#4 && t.cmdLast == 0x102#32) = true ∧
    gives (step (hosted (.regWrite 0x000 32 0x0B#32) idle)) (fun t => busy t && !busy idle) = true ∧
    gives (step { ready .ldtab with tvalid := false }) (fun t => t.tvalid && !busy t) = true ∧
    gives (step (hosted (.regWrite 0x1FC 32 0#32) (ready .nop))) (fun t => t.ovr) = true ∧
    gives (step (hosted (.regWrite 0x004 32 0x102#32) { idle with done := true, ovr := true })) (fun t => !t.done && !t.ovr) = true ∧
    gives (step (hosted (.regWrite 0x008 32 3#32) { idle with ready := false })) (fun t => t.ready && t.ie) = true := by decide +kernel

theorem witness_InterruptFollowsDoneAndEnable :
    gives (step { ready .nop with ie := true }) (fun t => irq t && !irq { ready .nop with ie := true }) = true ∧
    gives (step (hosted (.regWrite 0x008 32 2#32) { idle with done := true })) irq = true := by decide +kernel

theorem witness_MarksAreNeverCleared :
    gives (step { ready .nop with marks := ⟨[5], true⟩, agenda := [.reset] }) (fun t => t.marks == ⟨[5], true⟩) = true := by decide +kernel

/-- R172: once the host has executed its last statement, an idle, unmarked state is final, although a reset may still come. -/
theorem test_final : Final { idle with agenda := [.engine, .reset] } := ⟨fun _ h => by simp at h, rfl, rfl, rfl⟩

theorem witness_UnspecifiedStateIsUnobservable : ∃ s t : State, SameButUnobservable s t ∧ s ≠ t :=
  ⟨{ idle with tvalid := false }, { idle with tvalid := false, tab := idTable, pend := 7#32 }, ⟨rfl, (fun h => by cases h), fun h => (h rfl).elim⟩,
    fun h => absurd (congrArg State.pend h) (by decide)⟩

theorem witness_StoringASequenceIsByteStores :
    ∃ (m : Memory) (a : Nat) (X : Bytes), Memory.wf m ∧ a + X.length + 1 ≤ Config.addrTop := by
  refine ⟨[(3, 1#8)], 2 ^ 32 - 1, [], ⟨by simp, ?_, ?_⟩, by decide⟩
  · simp [Memory.unlisted]
  · simp [Config.addrTop]

end Sys2Proof.Tests
end

section
/-! Proofs of the statements on scope and notation (00_scope.md): the order of draws, and a stored sequence as its bytes. -/

namespace Sys2Proof.Machine

/-! ### Draws -/

/-- As long as the source has bytes in hand, its draws are those bytes (R18). -/
theorem drawBytes_append (R rest : List Byte) (k : Nat) : drawBytes R.length (R ++ rest) k = R := by
  induction R generalizing k with
  | nil => rfl
  | cons b R ih => exact congrArg (b :: ·) (ih (k + 1))

/-- Settles O25: the source hands out its bytes from the front of the list. -/
theorem drawsComeInOrder : Obligations.DrawsComeInOrder := by
  rintro _ s R rest rfl hs
  rw [draws, hs]
  exact ⟨drawBytes_append R rest s.drawPos, List.drop_left⟩

/-! ### Storing a sequence -/

theorem byteAt_cons_pos {b : Byte} {X : Bytes} {i : Nat} (h : 0 < i) : byteAt (b :: X) i = byteAt X (i - 1) := by
  obtain ⟨j, rfl⟩ := Nat.exists_eq_succ_of_ne_zero h.ne'
  rfl

namespace Memory

/-- Byte by byte, storing `b :: X` and storing `b` and then `X` give the same memory, canonical or not (R61). -/
theorem read_write_cons (m : Memory) (a : Nat) (b : Byte) (X : Bytes) (c : Nat) :
    read (write m a (b :: X)) c = read (write (writeByte m a b) (a + 1) X) c := by
  rw [writeByte]
  rcases lt_trichotomy c a with h | rfl | h
  · rw [read_write_out (.inl h), read_write_out (by omega), read_write_out (.inl h)]
  · rw [read_write_out (X := X) (.inl (Nat.lt_succ_self c)), read_write, read_write]
    simp [byteAt]
  · rw [read_write, read_write, read_write_out (X := [b]) (.inr h), byteAt_cons_pos (by omega)]
    have hrange : (a ≤ c ∧ c < a + (b :: X).length) ↔ (a + 1 ≤ c ∧ c < a + 1 + X.length) := by
      rw [List.length_cons]
      omega
    rw [Nat.sub_sub, if_congr hrange rfl rfl]

end Memory

/-- Settles O60: both sides are canonical, and canonical memories with the same bytes are equal. -/
theorem storingASequenceIsByteStores : Obligations.StoringASequenceIsByteStores := by
  intro m a b X hm htop
  have hbyte : Memory.wf (Memory.writeByte m a b) := Memory.wf_write hm (.inr (by simp; omega))
  exact Memory.wf_ext (Memory.wf_write hm (.inr (by simp; omega))) (Memory.wf_write hbyte (.inr (by omega)))
    (Memory.read_write_cons m a b X)

end Sys2Proof.Machine
end

section
/-! Proofs of the statements on the state (10_state.md): the STATUS and CFG words, and what a read of the register port returns. -/

namespace Sys2Proof.Machine

variable {s : State} {off : Nat} {rest : List Turn}

theorem busy_iff (s : State) : busy s = true ↔ s.phase ≠ .idle := by
  rw [busy]
  cases s.phase <;> simp

theorem popTurn_of_agenda {a : Turn} (h : s.agenda = a :: rest) : popTurn s = { s with agenda := rest } := by
  rw [popTurn, h, List.tail_cons]

/-! ### STATUS and CFG -/

/-- STATUS bit by bit (R25). -/
theorem getLsbD_statusWord (s : State) (i : Nat) : (statusWord s).getLsbD i =
    if i = 0 then busy s else if i = 1 then s.done else if i < 4 then false else if i < 8 then s.errcode.getLsbD (i - 4)
    else if i = 8 then s.ovr else if i = 9 then s.tvalid else if i = 10 then s.crcok else if i = 11 then s.recok else false := by
  have hwidth : (statusWord s).getLsbD i = BitVec.getLsbD (w := 20 + 1 + 1 + 1 + 1 + 4 + 2 + 1 + 1) (statusWord s) i := rfl
  rw [hwidth, statusWord]
  simp only [BitVec.getLsbD_append, BitVec.getLsbD_ofBool, BitVec.getLsbD_zero]
  rcases Nat.lt_or_ge i 12 with hi | hi
  · interval_cases i <;> simp
  · simp (disch := omega) only [if_neg]

/-- CFG bit by bit (R33). -/
theorem getLsbD_cfgWord (s : State) (i : Nat) :
    (cfgWord s).getLsbD i = if i = 0 then s.ready else if i = 1 then s.ie else false := by
  have hwidth : (cfgWord s).getLsbD i = BitVec.getLsbD (w := 30 + 1 + 1) (cfgWord s) i := rfl
  rw [hwidth, cfgWord]
  simp only [BitVec.getLsbD_append, BitVec.getLsbD_ofBool, BitVec.getLsbD_zero]
  grind

theorem statusWord_busy (s : State) : (statusWord s).getLsbD 0 = busy s := getLsbD_statusWord s 0

/-- Settles O43: each field is read off its word bit by bit. -/
theorem statusAndConfigWordsHaveTheirFields : Obligations.StatusAndConfigWordsHaveTheirFields := by
  intro s
  refine ⟨by rw [statusWord_busy, busy_iff], getLsbD_statusWord s 1, ?_, ?_, getLsbD_statusWord s 8, getLsbD_statusWord s 9,
    getLsbD_statusWord s 10, getLsbD_statusWord s 11, ?_, getLsbD_cfgWord s 0, getLsbD_cfgWord s 1, ?_⟩
  all_goals
    ext i hi
    simp only [BitVec.getElem_extractLsb', getLsbD_statusWord, getLsbD_cfgWord, BitVec.getElem_zero]
    grind

/-! ### Reads of the register port -/

/-- A read that the port accepts answers the register's word and changes nothing else (40_control.md R87). -/
theorem step_regRead (h : s.agenda = .host (.regRead off 32) :: rest) (hw : off % 4 = 0) (hlt : off < 0x200) :
    step s = .next { s with agenda := rest, answers := .word (regWord (slotAt off) s) :: s.answers } := by
  have hacc : portAccepts off 32 = true := by simp [portAccepts, hw, hlt]
  rw [step_host h, hostTurn, if_pos hacc, popTurn_of_agenda h]
  cases slotAt off <;> rfl

theorem slotAt_unmapped (h : 0x048 ≤ off) (hlt : off < 0x100) : slotAt off = .unmapped := by
  rw [slotAt_eq _ h, if_neg (by omega)]

theorem slotAt_tab {k : Nat} (h : k < 64) : slotAt (0x100 + 4 * k) = .tab k := by
  rw [slotAt_eq _ (by omega), if_pos (by omega), Nat.add_sub_cancel_left, Nat.mul_div_cancel_left _ (by decide)]

theorem setWidth_eq_zero_append (n : Nat) {w : Nat} (x : BitVec w) : x.setWidth (n + w) = 0#n ++ x := by
  rw [BitVec.setWidth_eq_append (Nat.le_add_left ..)]
  simp

/-- Four bytes as one word, byte 0 lowest. -/
theorem append_eq_littleEndian (b₀ b₁ b₂ b₃ : Byte) : b₃ ++ b₂ ++ b₁ ++ b₀ =
    b₀.setWidth 32 ||| b₁.setWidth 32 <<< 8 ||| b₂.setWidth 32 <<< 16 ||| b₃.setWidth 32 <<< 24 := by
  refine BitVec.eq_of_getLsbD_eq fun i hi => ?_
  simp only [BitVec.getLsbD_append, BitVec.getLsbD_or, BitVec.getLsbD_shiftLeft, BitVec.getLsbD_setWidth]
  grind

/-- Byte `i` of the TAB window is entry `i` of the table. -/
theorem tabByte_eq_tabAt (T : Vector Byte 256) {i : Nat} (h : i < 256) : tabByte T i = tabAt T (BitVec.ofNat 8 i) := by
  simp [tabByte, tabAt, byteAt, h, Nat.mod_eq_of_lt h]

/-- The TAB window, word by word (R54). -/
theorem regWord_tab (s : State) {k : Nat} (h : k < 64) : regWord (.tab k) s =
    if s.tvalid then
      (tabAt s.tab (BitVec.ofNat 8 (4 * k))).setWidth 32 ||| (tabAt s.tab (BitVec.ofNat 8 (4 * k + 1))).setWidth 32 <<< 8 |||
      (tabAt s.tab (BitVec.ofNat 8 (4 * k + 2))).setWidth 32 <<< 16 |||
      (tabAt s.tab (BitVec.ofNat 8 (4 * k + 3))).setWidth 32 <<< 24
    else 0#32 := by
  rw [regWord, tabWord, tabByte_eq_tabAt _ (by omega), tabByte_eq_tabAt _ (by omega), tabByte_eq_tabAt _ (by omega),
    tabByte_eq_tabAt _ (by omega), append_eq_littleEndian]

/-- Settles O42: the port answers the word of the register that the map puts at the offset. -/
theorem readFollowsTheMap : Obligations.ReadFollowsTheMap := by
  intro s off rest h hw hlt
  have hread {o : Nat} {v : Word} (hv : regWord (slotAt o) s = v) (ho : off = o) :
      step s = .next { s with agenda := rest, answers := .word v :: s.answers } := by
    subst o v
    exact step_regRead h hw hlt
  exact ⟨hread rfl, hread rfl, hread rfl, hread (setWidth_eq_zero_append 24 _), hread rfl, hread rfl, hread rfl, hread rfl, hread rfl,
    hread rfl, hread rfl, hread rfl, hread rfl, hread rfl, hread (setWidth_eq_zero_append 16 _), hread rfl, hread rfl, hread rfl,
    fun hlo hhi => hread (by rw [slotAt_unmapped hlo hhi]; rfl) rfl,
    fun k hk => hread (by rw [slotAt_tab (by omega), regWord_tab s (by omega)]) hk⟩

end Sys2Proof.Machine
end

section
/-! What one turn of the host can do, as an inversion, and what each register, the memory and the marks see of it. -/

namespace Sys2Proof.Machine

variable {u t : State} {off : Nat} {op : HostOp} {w : Word}

/-! ### What a host turn can do -/

/-- A host store as one record update. -/
theorem hostStore_eq (a : Nat) (b : Byte) (s : State) : hostStore a b s = { s with
    mem := Memory.write s.mem a [b]
    marks := { s.marks with faults := if isHazard s a then insertSorted a s.marks.faults else s.marks.faults } } := by
  rw [hostStore]
  split <;> rfl

/-- Except for the TAB window and the unmapped offsets, a place stands at the offset that the map gives it (30_encoding.md R75). -/
theorem mem_registerMap_of_slotAt {r : RegSlot} (h : slotAt off = r) (htab : ∀ k, r ≠ .tab k) (hun : r ≠ .unmapped) :
    (off, r) ∈ registerMap := by
  rw [slotAt] at h
  cases hl : registerMap.lookup off with
  | none =>
    rw [hl] at h
    dsimp only at h
    split at h
    · exact absurd h.symm (htab _)
    · exact absurd h.symm hun
  | some q =>
    rw [hl] at h
    obtain rfl : q = r := h
    obtain ⟨l₁, l₂, hm, -⟩ := List.lookup_eq_some_iff.mp hl
    simp [hm]

/-- Everything one turn of the host can do: look, store a byte (70_reset_and_hazards.md R164), or make the one register write that
40_control.md R88 and R89 give it. Values that no later fact needs may be any. -/
inductive HostStep (u : State) : HostOp → State → Prop where
  | looks {op : HostOp} (refused : Bool) (frees : Nat) (agenda : List Turn) (answers : List Answer)
      (kept : u.marks.refused = true → refused = true) :
      HostStep u op { u with marks := { u.marks with refused := refused }, frees := frees, agenda := agenda, answers := answers }
  | pokes (a : Word) (b : Byte) : HostStep u (.memWrite a b) { u with
      mem := Memory.write u.mem a.toNat [b]
      marks := { u.marks with faults := if isHazard u a.toNat then insertSorted a.toNat u.marks.faults else u.marks.faults } }
  | clears (w : Word) : HostStep u (.regWrite 0x004 32 w) (writeStatus w u)
  | drops (off : Nat) (w : Word) (busy : u.phase ≠ .idle) (other : off ≠ 0x004) :
      HostStep u (.regWrite off 32 w) { u with ovr := true }
  | issues (w : Word) (idle : u.phase = .idle) : HostStep u (.regWrite 0x000 32 w) (issue w u)
  | configures (w : Word) (idle : u.phase = .idle) : HostStep u (.regWrite 0x008 32 w) (writeCfg w u)
  | setsIdx (w : Word) (idle : u.phase = .idle) : HostStep u (.regWrite 0x00C 32 w) { u with idx := w.setWidth 8 }
  | setsOperand (off : Nat) (w src dst img imga imgcs scr len seed expect max : Word) (idle : u.phase = .idle)
      (locked : u.ready = true → imga = u.imga ∧ imgcs = u.imgcs) :
      HostStep u (.regWrite off 32 w) { u with
        src := src, dst := dst, img := img, imga := imga, imgcs := imgcs, scr := scr, len := len
        crc32Seed := seed, crc32Expect := expect, serRetryMax := max }

theorem hostStep_writeIdle (hp : u.phase = .idle) : HostStep u (.regWrite off 32 w) (writeIdle (slotAt off) w u) := by
  have hat := fun r => mem_registerMap_of_slotAt (off := off) (r := r)
  cases hr : slotAt off with
  | cmd =>
    obtain rfl : off = 0x000 := by simpa [registerMap] using hat _ hr (by simp) (by simp)
    exact .issues w hp
  | status =>
    obtain rfl : off = 0x004 := by simpa [registerMap] using hat _ hr (by simp) (by simp)
    exact .clears w
  | cfg =>
    obtain rfl : off = 0x008 := by simpa [registerMap] using hat _ hr (by simp) (by simp)
    exact .configures w hp
  | idx =>
    obtain rfl : off = 0x00C := by simpa [registerMap] using hat _ hr (by simp) (by simp)
    exact .setsIdx w hp
  | imga =>
    by_cases h : u.ready = true
    · rw [writeIdle, if_pos h]
      exact .looks _ _ _ _ id
    · rw [writeIdle, if_neg h]
      exact .setsOperand off w _ _ _ _ _ _ _ _ _ _ hp fun h' => absurd h' h
  | imgcs =>
    by_cases h : u.ready = true
    · rw [writeIdle, if_pos h]
      exact .looks _ _ _ _ id
    · rw [writeIdle, if_neg h]
      exact .setsOperand off w _ _ _ _ _ _ _ _ _ _ hp fun h' => absurd h' h
  | _ => exact .setsOperand off w _ _ _ _ _ _ _ _ _ _ hp fun _ => ⟨rfl, rfl⟩

theorem hostStep_writeReg : HostStep u (.regWrite off 32 w) (writeReg (slotAt off) w u) := by
  by_cases hb : busy u = true
  · rw [writeReg, if_pos hb, writeBusy]
    by_cases hr : slotAt off = .status
    · obtain rfl : off = 0x004 := by simpa [registerMap] using mem_registerMap_of_slotAt hr (by simp) (by simp)
      exact .clears w
    · rw [if_neg hr]
      exact .drops off w ((busy_iff u).mp hb) fun h => hr (h ▸ rfl)
  · rw [writeReg, if_neg hb]
    exact hostStep_writeIdle (by_contra fun h => hb ((busy_iff u).mpr h))

theorem hostStep_hostTurn (op : HostOp) (u : State) : HostStep u op (hostTurn op u) := by
  cases op with
  | regRead off width =>
    rw [hostTurn]
    split
    · exact .looks _ _ _ _ id
    · exact .looks _ _ _ _ fun _ => rfl
  | regWrite off width w =>
    rw [hostTurn]
    split
    · obtain rfl : width = 32 := by simp_all [portAccepts]
      exact hostStep_writeReg
    · exact .looks _ _ _ _ fun _ => rfl
  | memRead a =>
    rw [hostTurn, hostLoad]
    split <;> exact .looks _ _ _ _ id
  | memWrite a b =>
    rw [hostTurn, hostStore_eq]
    exact .pokes a b
  | waitDone =>
    rw [hostTurn, pollDone]
    split <;> exact .looks _ _ _ _ id

/-- What no host turn changes: the results of the commands and where they come from. -/
structure SameResults (u t : State) : Prop where
  tab : t.tab = u.tab
  tvalid : t.tvalid = u.tvalid
  crcok : t.crcok = u.crcok
  crc32Result : t.crc32Result = u.crc32Result
  recok : t.recok = u.recok
  crc16Result : t.crc16Result = u.crc16Result
  serAttempts : t.serAttempts = u.serAttempts
  cmdLast : t.cmdLast = u.cmdLast
  errcode : t.errcode = u.errcode

theorem HostStep.sameResults (h : HostStep u op t) : SameResults u t := by
  cases h <;> constructor <;> rfl

/-- The host leaves the phase alone, but for an issue (40_control.md R91). -/
theorem HostStep.phase (h : HostStep u op t) :
    t.phase = u.phase ∨ (u.phase = .idle ∧ t.phase = .pending ∧ t.done = false ∧ ∃ w, op = .regWrite 0x000 32 w) := by
  cases h with
  | issues w idle => exact .inr ⟨idle, rfl, rfl, w, rfl⟩
  | _ => exact .inl rfl

/-- The host clears DONE by an issue or a write to STATUS, and never sets it (10_state.md R27). -/
theorem HostStep.done (h : HostStep u op t) : t.done = u.done ∨
    (t.done = false ∧ ∃ w, op = .regWrite 0x000 32 w ∨ (op = .regWrite 0x004 32 w ∧ w.getLsbD 1 = true)) := by
  cases h with
  | issues w idle => exact .inr ⟨rfl, w, .inl rfl⟩
  | clears w =>
    cases hw : w.getLsbD 1 with
    | false => exact .inl (by simp only [writeStatus_done, hw, Bool.not_false, Bool.and_true])
    | true => exact .inr ⟨by simp only [writeStatus_done, hw, Bool.not_true, Bool.and_false], w, .inr ⟨rfl, hw⟩⟩
  | _ => exact .inl rfl

/-- OVR rises by a dropped write and falls by a write to STATUS (10_state.md R29). -/
theorem HostStep.ovr (h : HostStep u op t) : t.ovr = u.ovr ∨
    (t.ovr = true ∧ u.phase ≠ .idle ∧ ∃ off w, off ≠ 0x004 ∧ op = .regWrite off 32 w) ∨
    (t.ovr = false ∧ ∃ w, op = .regWrite 0x004 32 w ∧ w.getLsbD 8 = true) := by
  cases h with
  | drops off w busy other => exact .inr (.inl ⟨rfl, busy, off, w, other, rfl⟩)
  | clears w =>
    cases hw : w.getLsbD 8 with
    | false => exact .inl (by simp only [writeStatus_ovr, hw, Bool.not_false, Bool.and_true])
    | true => exact .inr (.inr ⟨by simp only [writeStatus_ovr, hw, Bool.not_true, Bool.and_false], w, rfl, hw⟩)
  | _ => exact .inl rfl

/-- READY and IE change by a write to CFG alone (10_state.md R34, R35). -/
theorem HostStep.config (h : HostStep u op t) :
    (t.ready = u.ready ∧ t.ie = u.ie) ∨ (u.phase = .idle ∧ ∃ w, op = .regWrite 0x008 32 w) := by
  cases h with
  | configures w idle => exact .inr ⟨idle, w, rfl⟩
  | _ => exact .inl ⟨rfl, rfl⟩

theorem HostStep.idx (h : HostStep u op t) : t.idx = u.idx ∨ (u.phase = .idle ∧ ∃ w, op = .regWrite 0x00C 32 w) := by
  cases h with
  | setsIdx w idle => exact .inr ⟨idle, w, rfl⟩
  | _ => exact .inl rfl

/-- While READY = 1 the host changes neither READY nor an image base (10_state.md R34, R40, R41). -/
theorem HostStep.locked (h : HostStep u op t) (hr : u.ready = true) : t.ready = true ∧ t.imga = u.imga ∧ t.imgcs = u.imgcs := by
  cases h with
  | setsOperand off w src dst img imga imgcs scr len seed expect max idle locked => exact ⟨hr, locked hr⟩
  | configures w idle => exact ⟨by simp [hr], rfl, rfl⟩
  | _ => exact ⟨hr, rfl, rfl⟩

/-- While the engine is busy, the host reaches no register but DONE and OVR (40_control.md R89). -/
theorem HostStep.busy_frame (h : HostStep u op t) (hb : u.phase ≠ .idle) : t = { u with
    done := t.done, ovr := t.ovr, marks := t.marks, mem := t.mem, frees := t.frees, agenda := t.agenda, answers := t.answers } := by
  cases h with
  | issues w idle => exact absurd idle hb
  | configures w idle => exact absurd idle hb
  | setsIdx w idle => exact absurd idle hb
  | setsOperand off w src dst img imga imgcs scr len seed expect max idle => exact absurd idle hb
  | _ => rfl

/-- The host keeps the canonical form of memory: a store reaches addresses below 2^32 alone (20_memory.md R58). -/
theorem HostStep.memory (h : HostStep u op t) (hm : Memory.wf u.mem) : Memory.wf t.mem := by
  cases h with
  | pokes a b => exact Memory.wf_write hm (.inr (Nat.succ_le_of_lt a.isLt))
  | _ => exact hm

theorem HostStep.hazards (h : HostStep u op t) (hm : u.marks.faults.Pairwise (· < ·)) : t.marks.faults.Pairwise (· < ·) := by
  cases h with
  | pokes a b =>
    dsimp only
    split
    · exact pairwise_insertSorted hm
    · exact hm
  | _ => exact hm

/-- The host clears no mark (10_state.md R57). -/
theorem HostStep.marks (h : HostStep u op t) :
    (∀ a ∈ u.marks.faults, a ∈ t.marks.faults) ∧ (u.marks.refused = true → t.marks.refused = true) := by
  cases h with
  | looks refused frees agenda answers kept => exact ⟨fun _ => id, kept⟩
  | pokes a b =>
    refine ⟨fun x hx => ?_, id⟩
    dsimp only
    split
    · exact mem_insertSorted.mpr (.inr hx)
    · exact hx
  | _ => exact ⟨fun _ => id, id⟩

end Sys2Proof.Machine
end

section
/-! What one turn of the engine can do, as an inversion, and what every step can do. -/

namespace Sys2Proof.Machine

variable {s t u : State} {i : Instr}

/-! ### The three ends of an attempt, each as one record update -/

theorem storeRecord_settleDraws_eq (B K : Bytes) (n : Word) (w : SerWork) (u : State) : storeRecord B K n (settleDraws w u) = { u with
    mem := Memory.write u.mem u.dst.toNat (serEncrypt B K), serAttempts := n
    supply := u.supply.drop Config.serDraws, drawPos := u.drawPos + Config.serDraws
    drawCount := u.drawCount + (w.drawn + Config.serDraws)
    errcode := codeOf .ok, done := true, cmdLast := u.pend, phase := .idle } := by
  rw [storeRecord_eq, settleDraws, consumeDraws]
  rfl

theorem complete_settleDraws_eq (n : Word) (w : SerWork) (u : State) : complete .retryBudget (setAttempts n (settleDraws w u)) = { u with
    serAttempts := n
    supply := u.supply.drop Config.serDraws, drawPos := u.drawPos + Config.serDraws
    drawCount := u.drawCount + (w.drawn + Config.serDraws)
    errcode := codeOf .retryBudget, done := true, cmdLast := u.pend, phase := .idle } := by
  rw [complete, setAttempts, settleDraws, consumeDraws]

theorem enterLoop_consumeDraws_eq (v : SerWork) (u : State) : enterLoop v (consumeDraws Config.serDraws 0 u) = { u with
    supply := u.supply.drop Config.serDraws, drawPos := u.drawPos + Config.serDraws, phase := .serloop v } := by
  rw [enterLoop, consumeDraws]
  rfl

/-! ### What an engine turn can do -/

/-- Everything one turn of the engine can do: it is idle or stuck, a check fails, a command runs, or SERENC makes an attempt
(40_control.md R93, R94; 45_serial_record.md R135, R136). -/
inductive EngineStep (u : State) : State → Prop where
  | rests : EngineStep u u
  | fails (e : ErrCode) (pending : u.phase = .pending) : EngineStep u (complete e u)
  | runs (i : Instr) (pending : u.phase = .pending) (word : decode u.pend = some i) (clear : Clear i u) : EngineStep u (effectOf i u)
  | stores (w : SerWork) (X : Bytes) (loop : u.phase = .serloop w) (length : X.length = Config.serLen) : EngineStep u { u with
      mem := Memory.write u.mem u.dst.toNat X, serAttempts := satIncr w.n
      supply := u.supply.drop Config.serDraws, drawPos := u.drawPos + Config.serDraws
      drawCount := u.drawCount + (w.drawn + Config.serDraws)
      errcode := codeOf .ok, done := true, cmdLast := u.pend, phase := .idle }
  | givesUp (w : SerWork) (loop : u.phase = .serloop w) : EngineStep u { u with
      serAttempts := satIncr w.n
      supply := u.supply.drop Config.serDraws, drawPos := u.drawPos + Config.serDraws
      drawCount := u.drawCount + (w.drawn + Config.serDraws)
      errcode := codeOf .retryBudget, done := true, cmdLast := u.pend, phase := .idle }
  | goesOn (w v : SerWork) (loop : u.phase = .serloop w) (budget : budgetSpent u.serRetryMax v.n = false) : EngineStep u { u with
      supply := u.supply.drop Config.serDraws, drawPos := u.drawPos + Config.serDraws, phase := .serloop v }

theorem engineStep_exec (hp : u.phase = .pending) (hd : decode u.pend = some i) (h : exec i u = .next t) : EngineStep u t := by
  obtain ⟨e, -, rfl⟩ | ⟨hc, -, rfl⟩ | ⟨-, -, rfl⟩ := exec_next h
  · exact .fails e hp
  · exact .runs i hp hd hc
  · exact .rests

theorem engineStep_attempt {w : SerWork} (hp : u.phase = .serloop w) (h : attemptSerenc w u = .next t) : EngineStep u t := by
  obtain ⟨-, -, rfl⟩ | ⟨-, -, rfl⟩ | ⟨-, -, rfl⟩ | ⟨-, hb, rfl⟩ := attemptSerenc_next h
  · rw [storeRecord_settleDraws_eq]
    exact .stores w _ hp (length_serEncrypt_sealed ..)
  · exact .rests
  · rw [complete_settleDraws_eq]
    exact .givesUp w hp
  · rw [enterLoop_consumeDraws_eq]
    exact .goesOn w _ hp hb

/-- Everything one step can do, agent by agent. -/
theorem step_cases (h : step s = .next t) :
    (∃ op rest, s.agenda = .host op :: rest ∧ HostStep (popTurn s) op t) ∨ (Resets s ∧ t = resetTurn (popTurn s)) ∨
    (EngineMoves s ∧ EngineStep (popTurn s) t) := by
  obtain ⟨op, hn, rfl⟩ | ⟨hn, rfl⟩ | ⟨hn, -, rfl⟩ | ⟨hn, hp, -, rfl⟩ | ⟨hn, hp, i, hd, he⟩ | ⟨hn, w, hp, ha⟩ := step_next h
  · rw [nextTurn] at hn
    cases hs : s.agenda with
    | nil => rw [hs] at hn; cases hn
    | cons a rest =>
      rw [hs] at hn
      obtain rfl : a = .host op := hn
      exact .inl ⟨op, rest, rfl, hostStep_hostTurn op _⟩
  · exact .inr (.inl ⟨nextTurn_reset_iff.mp hn, rfl⟩)
  · exact .inr (.inr ⟨nextTurn_engine_iff.mp hn, .rests⟩)
  · exact .inr (.inr ⟨nextTurn_engine_iff.mp hn, .fails _ hp⟩)
  · exact .inr (.inr ⟨nextTurn_engine_iff.mp hn, engineStep_exec hp hd he⟩)
  · exact .inr (.inr ⟨nextTurn_engine_iff.mp hn, engineStep_attempt hp ha⟩)

theorem not_resets_of_engineMoves (h : EngineMoves s) : ¬ Resets s := by
  rw [← nextTurn_engine_iff] at h
  rw [← nextTurn_reset_iff, h]
  simp

/-- No engine turn changes what the host has written (10_state.md R52), the marks, or the agents' own lists. -/
theorem EngineStep.sameInputs (h : EngineStep u t) : SameInputs u t := by
  cases h with
  | runs i => exact sameInputs_effectOf i u
  | _ => constructor <;> rfl

/-- The engine's turn runs this command: its first step, or an attempt of SERENC. -/
def Running (i : Instr) (u : State) : Prop :=
  (u.phase = .pending ∧ decode u.pend = some i) ∨ (i = .serenc ∧ ∃ w, u.phase = .serloop w)

/-- Which results a turn may write, when the commands that it can run are those of `P` (10_state.md R52 and the register rules): each is
left alone, or is such a command's own. -/
structure OwnResults (P : Instr → Prop) (s t : State) : Prop where
  table : (t.tab = s.tab ∧ t.tvalid = s.tvalid) ∨ (∃ i, P i ∧ LoadsTable i ∧ t.tvalid = true ∧ t.errcode = 0#4) := by
    exact .inl ⟨rfl, rfl⟩
  crc32 : (t.crcok = s.crcok ∧ t.crc32Result = s.crc32Result) ∨ P .crc32v := by exact .inl ⟨rfl, rfl⟩
  crc16 : (t.recok = s.recok ∧ t.crc16Result = s.crc16Result) ∨ (P .keychk ∧ t.recok = decide (t.crc16Result = 0#16)) := by
    exact .inl ⟨rfl, rfl⟩
  attempts : t.serAttempts = s.serAttempts ∨ P .serenc := by exact .inl rfl
  idx : t.idx = s.idx ∨ ((P (.decblk true) ∨ P (.encblk true)) ∧ t.idx = s.idx + 4#8 ∧ t.errcode = 0#4) := by exact .inl rfl
  code : t.errcode = s.errcode ∨ ∃ e, t.errcode = codeOf e := by exact .inr ⟨.ok, rfl⟩

theorem ownResults_effectOf {P : Instr → Prop} {i : Instr} (hi : P i) (s : State) : OwnResults P s (effectOf i s) := by
  cases i with
  | nop => exact {}
  | ldtab =>
    rw [effectOf, ldtabEffect_eq]
    exact { table := .inr ⟨_, hi, trivial, rfl, rfl⟩ }
  | decblk adv =>
    rw [effectOf, decblkEffect_eq]
    cases adv with
    | false => exact {}
    | true => exact { idx := .inr ⟨.inl hi, rfl, rfl⟩ }
  | encblk adv =>
    rw [effectOf, encblkEffect_eq]
    cases adv with
    | false => exact {}
    | true => exact { idx := .inr ⟨.inr hi, rfl, rfl⟩ }
  | decimg =>
    rw [effectOf, decimgEffect_eq]
    exact { table := .inr ⟨_, hi, trivial, rfl, rfl⟩ }
  | encimg k =>
    rw [effectOf, encimgEffect_eq]
    exact { table := .inr ⟨_, hi, trivial, rfl, rfl⟩ }
  | getenc v k =>
    by_cases h : v = k
    · subst h
      rw [effectOf, getencEffect_same]
      exact {}
    · rw [effectOf, getencEffect_cross s h]
      exact { table := .inr ⟨_, hi, h, rfl, rfl⟩ }
  | crc32v =>
    rw [effectOf, crc32vEffect]
    split
    · exact { crc32 := .inr hi }
    · exact { crc32 := .inr hi, code := .inr ⟨.checksum, rfl⟩ }
  | keychk =>
    rw [effectOf, keychkEffect_eq]
    exact { crc16 := .inr ⟨hi, rfl⟩ }
  | serdec =>
    rw [effectOf, serdecEffect_eq]
    exact {}
  | serenc =>
    rw [effectOf]
    by_cases h : skips s = true
    · rw [serencEffect_skip s h, storeRecord_eq]
      exact { attempts := .inr hi }
    · rw [serencEffect_loop s h]
      exact { code := .inl rfl }

theorem EngineStep.ownResults (h : EngineStep u t) : OwnResults (Running · u) u t := by
  cases h with
  | rests => exact { code := .inl rfl }
  | fails e => exact { code := .inr ⟨e, rfl⟩ }
  | runs i pending word => exact ownResults_effectOf (P := (Running · u)) (.inl ⟨pending, word⟩) u
  | stores w X loop length => exact { attempts := .inr (.inr ⟨rfl, w, loop⟩) }
  | givesUp w loop => exact { attempts := .inr (.inr ⟨rfl, w, loop⟩), code := .inr ⟨.retryBudget, rfl⟩ }
  | goesOn => exact { code := .inl rfl }

/-- A turn that leaves SERENC in its loop: it has just entered, or its budget is not used up (45_serial_record.md R134, R135). -/
structure Loops (w : SerWork) (u t : State) : Prop where
  frame : t = { u with phase := .serloop w, supply := t.supply, drawPos := t.drawPos }
  source : (u.phase = .pending ∧ decode u.pend = some .serenc ∧ Clear .serenc u ∧ w.n = 0#32) ∨
    ((∃ v, u.phase = .serloop v) ∧ budgetSpent u.serRetryMax w.n = false)

/-- A turn of the engine changes nothing, completes the pending command, or leaves SERENC in its loop. -/
theorem EngineStep.ends (h : EngineStep u t) : t = u ∨ (u.phase ≠ .idle ∧ Completed u t) ∨ ∃ w, Loops w u t := by
  have busy {v : SerWork} (hv : u.phase = .serloop v) : u.phase ≠ .idle := by simp [hv]
  cases h with
  | rests => exact .inl rfl
  | fails e pending => exact .inr (.inl ⟨by simp [pending], completed_complete e u⟩)
  | runs i pending word clear =>
    by_cases hi : i = .serenc
    · subst hi
      rw [effectOf]
      by_cases hs : skips u = true
      · rw [serencEffect_skip u hs]
        exact .inr (.inl ⟨by simp [pending], rfl, rfl, rfl⟩)
      · rw [serencEffect_loop u hs]
        exact .inr (.inr ⟨_, rfl, .inl ⟨pending, word, clear, rfl⟩⟩)
    · exact .inr (.inl ⟨by simp [pending], completed_effectOf hi u⟩)
  | stores w X loop length => exact .inr (.inl ⟨busy loop, rfl, rfl, rfl⟩)
  | givesUp w loop => exact .inr (.inl ⟨busy loop, rfl, rfl, rfl⟩)
  | goesOn w v loop budget => exact .inr (.inr ⟨_, rfl, .inr ⟨⟨w, loop⟩, budget⟩⟩)

theorem Loops.busy {w : SerWork} (h : Loops w u t) : u.phase ≠ .idle := by
  obtain ⟨hp, -⟩ | ⟨⟨v, hp⟩, -⟩ := h.source <;> simp [hp]

/-- A turn of the engine leaves memory alone, or a command whose checks pass writes in its write footprint (20_memory.md R59). -/
theorem EngineStep.memory (h : EngineStep u t) (hinv : BteInv u) : t.mem = u.mem ∨
    ∃ i, Clear i u ∧ decode u.pend = some i ∧ Memory.wf t.mem ∧ ∀ a, ¬ Writes i u a → Memory.read t.mem a = Memory.read u.mem a := by
  cases h with
  | runs i pending word clear => exact .inr ⟨i, clear, word, mem_effectOf clear hinv.memory⟩
  | stores w X loop length =>
    obtain ⟨word, clear⟩ := hinv.loop_command w loop
    exact .inr ⟨.serenc, clear, word,
      write_in_footprint clear hinv.memory length (by decide) (List.mem_singleton.mpr rfl)⟩
  | _ => exact .inl rfl

end Sys2Proof.Machine
end

section
/-! Proofs of the statements on the state (10_state.md): the invariant, the stored images, the marks, and the writers of each flag
and result. -/

namespace Sys2Proof.Machine

variable {s t u : State} {op : HostOp} {i : Instr}

/-! ### The invariant -/

theorem codeOf_le (e : ErrCode) : (codeOf e).toNat ≤ 7 := by cases e <;> decide

theorem bteInv_popTurn (h : BteInv s) : BteInv (popTurn s) where
  memory := h.memory
  code := h.code
  hazards := h.hazards
  busy_not_done := h.busy_not_done
  recok_zero := h.recok_zero
  loop_command w hw := (h.loop_command w hw).imp_right clear_popTurn.mpr
  loop_budget := h.loop_budget

/-- SERENC's checks read no register that the host reaches while the engine is busy. -/
theorem clear_serenc_of_busy_frame {d o : Bool} {M : Marks} {m : Memory} {n : Nat} {a : List Turn} {x : List Answer}
    (h : Clear .serenc u) :
    Clear .serenc { u with done := d, ovr := o, marks := M, mem := m, frees := n, agenda := a, answers := x } :=
  (firstFailure_none_iff _ _).mp ((firstFailure_none_iff _ u).mpr h)

/-- SERENC's checks read nothing that its loop changes. -/
theorem clear_serenc_of_loop_frame {p : Phase} {bs : List Byte} {n : Nat} (h : Clear .serenc u) :
    Clear .serenc { u with phase := p, supply := bs, drawPos := n } :=
  (firstFailure_none_iff _ _).mp ((firstFailure_none_iff _ u).mpr h)

/-- A host turn keeps the invariant: SERLOOP and its command are out of its reach (40_control.md R89). -/
theorem HostStep.keeps_bteInv (h : HostStep u op t) (hinv : BteInv u) : BteInv t := by
  have hres := h.sameResults
  have hloop {w : SerWork} (hw : t.phase = .serloop w) : u.phase = .serloop w ∧ u.phase ≠ .idle := by
    obtain hp | ⟨-, hp, -⟩ := h.phase
    · rw [← hp, hw]
      simp
    · simp [hp] at hw
  constructor
  case memory => exact h.memory hinv.memory
  case code => exact hres.errcode ▸ hinv.code
  case hazards => exact h.hazards hinv.hazards
  case busy_not_done =>
    intro hb
    obtain hp | ⟨-, -, hd, -⟩ := h.phase
    · obtain hd | ⟨hd, -⟩ := h.done
      · rw [hd]
        exact hinv.busy_not_done ((busy_iff u).mpr (hp ▸ (busy_iff t).mp hb))
      · exact hd
    · exact hd
  case recok_zero => rw [hres.recok, hres.crc16Result]; exact hinv.recok_zero
  case loop_command =>
    intro w hw
    obtain ⟨hp, hb⟩ := hloop hw
    rw [h.busy_frame hb]
    exact (hinv.loop_command w hp).imp_right clear_serenc_of_busy_frame
  case loop_budget =>
    intro w hw
    obtain ⟨hp, hb⟩ := hloop hw
    rw [h.busy_frame hb]
    exact hinv.loop_budget w hp

theorem lt_of_not_budgetSpent {max n : Word} (h : budgetSpent max n = false) (hm : max ≠ 0#32) : n.toNat < max.toNat := by
  simpa [budgetSpent, hm] using h

/-- SERENC stays in its loop only with its checks passed and its budget not used up (45_serial_record.md R134, R135). -/
theorem Loops.command {w : SerWork} (h : Loops w u t) (hinv : BteInv u) :
    decode t.pend = some .serenc ∧ Clear .serenc t ∧ (t.serRetryMax ≠ 0#32 → w.n.toNat < t.serRetryMax.toNat) := by
  rw [h.frame]
  obtain ⟨-, hd, hc, hn⟩ | ⟨⟨v, hv⟩, hb⟩ := h.source
  · refine ⟨hd, clear_serenc_of_loop_frame hc, fun hm => ?_⟩
    rw [hn]
    exact Nat.pos_of_ne_zero fun h0 => hm (BitVec.eq_of_toNat_eq h0)
  · obtain ⟨hd, hc⟩ := hinv.loop_command v hv
    exact ⟨hd, clear_serenc_of_loop_frame hc, lt_of_not_budgetSpent hb⟩

theorem EngineStep.keeps_bteInv (h : EngineStep u t) (hinv : BteInv u) : BteInv t := by
  have hown := h.ownResults
  have hends := h.ends
  constructor
  case memory =>
    obtain hm | ⟨-, -, -, hm, -⟩ := h.memory hinv
    · exact hm ▸ hinv.memory
    · exact hm
  case code =>
    obtain hc | ⟨e, hc⟩ := hown.code
    · exact hc ▸ hinv.code
    · exact hc ▸ codeOf_le e
  case hazards => exact h.sameInputs.marks ▸ hinv.hazards
  case busy_not_done =>
    intro hb
    obtain rfl | ⟨-, hc⟩ | ⟨w, hl⟩ := hends
    · exact hinv.busy_not_done hb
    · exact absurd hc.phase ((busy_iff t).mp hb)
    · rw [hl.frame]
      exact hinv.busy_not_done ((busy_iff u).mpr hl.busy)
  case recok_zero =>
    obtain ⟨hr, hc⟩ | ⟨-, hr⟩ := hown.crc16
    · rw [hr, hc]
      exact hinv.recok_zero
    · rw [hr]
      exact of_decide_eq_true
  case loop_command =>
    intro w hw
    obtain rfl | ⟨-, hc⟩ | ⟨v, hl⟩ := hends
    · exact hinv.loop_command w hw
    · simp [hc.phase] at hw
    · obtain ⟨hd, hc, -⟩ := hl.command hinv
      exact ⟨hd, hc⟩
  case loop_budget =>
    intro w hw
    obtain rfl | ⟨-, hc⟩ | ⟨v, hl⟩ := hends
    · exact hinv.loop_budget w hw
    · simp [hc.phase] at hw
    · obtain ⟨-, -, hb⟩ := hl.command hinv
      rw [hl.frame] at hw
      obtain rfl : v = w := by simpa using hw
      exact hb

theorem bteInv_resetTurn (h : BteInv u) : BteInv (resetTurn u) where
  memory := wf_scramble h.memory _ _
  code := (by decide : (0#4).toNat ≤ 7)
  hazards := h.hazards
  busy_not_done _ := rfl
  recok_zero h := by cases h
  loop_command _ h := by cases h
  loop_budget _ h := by cases h

/-- Settles O51: each agent's turn keeps the invariant. -/
theorem everyStepKeepsTheInvariant : Obligations.EveryStepKeepsTheInvariant := by
  intro s t hinv h
  have hpop := bteInv_popTurn hinv
  obtain ⟨op, rest, -, hs⟩ | ⟨-, rfl⟩ | ⟨-, hs⟩ := step_cases h
  · exact hs.keeps_bteInv hpop
  · exact bteInv_resetTurn hpop
  · exact hs.keeps_bteInv hpop

/-! ### Stored images and their locks -/

/-- Settles O53: the third part of the overlap check keeps the write footprint apart from the stored images. -/
theorem commandsNeverWriteStoredImages : Obligations.CommandsNeverWriteStoredImages := by
  intro s t hinv he hready h a ha
  obtain ⟨op, rest, hs, -⟩ | ⟨hr, -⟩ | ⟨-, hs⟩ := step_cases h
  · simp [EngineMoves, hs] at he
  · exact absurd hr (not_resets_of_engineMoves he)
  · obtain hm | ⟨i, hc, -, -, hout⟩ := hs.memory (bteInv_popTurn hinv)
    · rw [hm, popTurn_mem]
    · exact hout a fun hw => hc.separate.stored hready a hw ha

/-- Settles O54: a command writes none of the three, and the host's writes to them are locked. -/
theorem readyLocksTheImageBases : Obligations.ReadyLocksTheImageBases := by
  intro s t hready hnr h
  obtain ⟨op, rest, -, hs⟩ | ⟨hr, -⟩ | ⟨-, hs⟩ := step_cases h
  · exact hs.locked hready
  · exact absurd hr hnr
  · have hin := hs.sameInputs
    exact ⟨hin.ready.trans hready, hin.imga, hin.imgcs⟩

/-! ### Marks -/

/-- Settles O58: the host only adds marks, reset keeps them, and no command writes them. -/
theorem marksAreNeverCleared : Obligations.MarksAreNeverCleared := by
  intro s t h
  obtain ⟨op, rest, -, hs⟩ | ⟨-, rfl⟩ | ⟨-, hs⟩ := step_cases h
  · exact hs.marks
  · exact ⟨fun _ => id, id⟩
  · rw [hs.sameInputs.marks]
    exact ⟨fun _ => id, id⟩

/-! ### Host stores -/

/-- A host write to the address is a hazard (70_reset_and_hazards.md R164, R168). -/
theorem isHazard_iff (s : State) (a : Nat) : isHazard s a = true ↔
    (s.phase ≠ .idle ∧ (PendingReads s a ∨ PendingWrites s a)) ∨ (s.ready = true ∧ InStoredImage s a) := by
  have hfoot : (∃ r ∈ (pendingFootprint s).rd ++ (pendingFootprint s).wr, inRegion r a = true) ↔
      PendingReads s a ∨ PendingWrites s a := by
    rw [pendingFootprint, PendingReads, PendingWrites]
    cases decode s.pend with
    | none => simp
    | some i => simp [Reads, Writes, or_and_right, exists_or]
  simp only [isHazard, Bool.or_eq_true, Bool.and_eq_true, busy_iff, List.any_eq_true, hfoot, InStoredImage]

theorem mem_recorded {c : Bool} {a x : Nat} {xs : List Nat} :
    x ∈ (if c then insertSorted a xs else xs) ↔ x ∈ xs ∨ (x = a ∧ c = true) := by
  cases c
  · simp
  · simp [mem_insertSorted, or_comm]

/-- Settles O45: a host store is one record update, and its hazard condition is that of the rules. -/
theorem hostStoreRecordsItsHazard : Obligations.HostStoreRecordsItsHazard := by
  intro s a b rest h
  refine ⟨_, step_host h, ?_, ?_, fun x hx => ?_, fun x => ?_⟩ <;> rw [hostTurn, hostStore_eq]
  · rw [popTurn_of_agenda h]
  · exact Memory.read_write_in (i := 0) (by simp)
  · exact Memory.read_write_out (by rw [List.length_singleton]; omega)
  · exact mem_recorded.trans (or_congr Iff.rfl (and_congr_right fun hx => hx ▸ isHazard_iff s a.toNat))

/-! ### The writers of the flags and results -/

/-- Everything a step that is no reset can do. -/
theorem step_cases_of_not_resets (h : step s = .next t) (hnr : ¬ Resets s) :
    (∃ op, (∀ off w, op = .regWrite off 32 w → HostWrites off w s) ∧ HostStep (popTurn s) op t) ∨
    (EngineMoves s ∧ EngineStep (popTurn s) t) := by
  obtain ⟨op, rest, ha, hs⟩ | ⟨hr, -⟩ | hs := step_cases h
  · exact .inl ⟨op, fun off w hop => ⟨rest, hop ▸ ha⟩, hs⟩
  · exact absurd hr hnr
  · exact .inr hs

/-- The results are written by the engine, and only by the command that it runs. -/
theorem step_ownResults (h : step s = .next t) (hnr : ¬ Resets s) :
    SameResults s t ∨ (EngineMoves s ∧ OwnResults (Running · (popTurn s)) (popTurn s) t) := by
  obtain ⟨op, -, hs⟩ | ⟨he, hs⟩ := step_cases_of_not_resets h hnr
  · obtain ⟨h₁, h₂, h₃, h₄, h₅, h₆, h₇, h₈, h₉⟩ := hs.sameResults
    exact .inl ⟨h₁, h₂, h₃, h₄, h₅, h₆, h₇, h₈, h₉⟩
  · exact .inr ⟨he, hs.ownResults⟩

theorem starts_of_running (he : EngineMoves s) (hr : Running i (popTurn s)) (hi : i ≠ .serenc) : Starts i s := by
  obtain ⟨hp, hd⟩ | ⟨h, -⟩ := hr
  · exact ⟨he, hp, hd⟩
  · exact absurd h hi

theorem table_writers (h : step s = .next t) (hnr : ¬ Resets s) : (t.tab = s.tab ∧ t.tvalid = s.tvalid) ∨
    (t.tvalid = true ∧ t.errcode = 0#4 ∧ ∃ i, LoadsTable i ∧ Starts i s) := by
  obtain hsame | ⟨he, hown⟩ := step_ownResults h hnr
  · exact .inl ⟨hsame.tab, hsame.tvalid⟩
  · exact hown.table.imp_right fun ⟨i, hi, hl, hv, hc⟩ =>
      ⟨hv, hc, i, hl, starts_of_running he hi fun h => by rw [h] at hl; exact hl⟩

theorem crc32_writers (h : step s = .next t) (hnr : ¬ Resets s) :
    (t.crcok = s.crcok ∧ t.crc32Result = s.crc32Result) ∨ Starts .crc32v s := by
  obtain hsame | ⟨he, hown⟩ := step_ownResults h hnr
  · exact .inl ⟨hsame.crcok, hsame.crc32Result⟩
  · exact hown.crc32.imp_right fun hr => starts_of_running he hr (by simp)

theorem crc16_writers (h : step s = .next t) (hnr : ¬ Resets s) :
    (t.recok = s.recok ∧ t.crc16Result = s.crc16Result) ∨ Starts .keychk s := by
  obtain hsame | ⟨he, hown⟩ := step_ownResults h hnr
  · exact .inl ⟨hsame.recok, hsame.crc16Result⟩
  · exact hown.crc16.imp_right fun ⟨hr, _⟩ => starts_of_running he hr (by simp)

theorem attempts_writers (h : step s = .next t) (hnr : ¬ Resets s) :
    t.serAttempts = s.serAttempts ∨ (EngineMoves s ∧ (Starts .serenc s ∨ ∃ w, s.phase = .serloop w)) := by
  obtain hsame | ⟨he, hown⟩ := step_ownResults h hnr
  · exact .inl hsame.serAttempts
  · obtain hk | ⟨hp, hd⟩ | ⟨-, hw⟩ := hown.attempts
    · exact .inl hk
    · exact .inr ⟨he, .inl ⟨he, hp, hd⟩⟩
    · exact .inr ⟨he, .inr hw⟩

theorem idx_writers (h : step s = .next t) (hnr : ¬ Resets s) : t.idx = s.idx ∨ (s.phase = .idle ∧ ∃ w, HostWrites 0x00C w s) ∨
    (t.idx = s.idx + 4#8 ∧ t.errcode = 0#4 ∧ (Starts (.decblk true) s ∨ Starts (.encblk true) s)) := by
  obtain ⟨op, ha, hs⟩ | ⟨he, hs⟩ := step_cases_of_not_resets h hnr
  · exact hs.idx.imp_right fun ⟨hi, w, hop⟩ => .inl ⟨hi, w, ha _ w hop⟩
  · exact hs.ownResults.idx.imp_right fun ⟨hr, hx, hc⟩ =>
      .inr ⟨hx, hc, hr.imp (starts_of_running he · (by simp)) (starts_of_running he · (by simp))⟩

/-- BUSY, DONE, CMD_LAST and ERRCODE change in an engine turn only by a completion (40_control.md R95). -/
theorem EngineStep.completes (h : EngineStep u t) : (u.phase ≠ .idle ∧ Completed u t) ∨
    (busy t = busy u ∧ t.done = u.done ∧ t.cmdLast = u.cmdLast ∧ t.errcode = u.errcode) := by
  obtain rfl | hc | ⟨w, hl⟩ := h.ends
  · exact .inr ⟨rfl, rfl, rfl, rfl⟩
  · exact .inl hc
  · rw [(busy_iff u).mpr hl.busy, hl.frame]
    exact .inr ⟨rfl, rfl, rfl, rfl⟩

theorem completion_writers (h : step s = .next t) (hnr : ¬ Resets s) : (t.cmdLast = s.cmdLast ∧ t.errcode = s.errcode) ∨
    (EngineMoves s ∧ s.phase ≠ .idle ∧ t.phase = .idle ∧ t.cmdLast = s.pend) := by
  obtain ⟨op, -, hs⟩ | ⟨he, hs⟩ := step_cases_of_not_resets h hnr
  · exact .inl ⟨hs.sameResults.cmdLast, hs.sameResults.errcode⟩
  · obtain ⟨hb, hc⟩ | ⟨-, -, hk⟩ := hs.completes
    · exact .inr ⟨he, hb, hc.phase, hc.cmdLast⟩
    · exact .inl hk

theorem busy_writers (h : step s = .next t) (hnr : ¬ Resets s) : busy t = busy s ∨
    (t.phase ≠ .idle ∧ s.phase = .idle ∧ ∃ w, HostWrites 0x000 w s) ∨ (t.phase = .idle ∧ s.phase ≠ .idle ∧ EngineMoves s) := by
  obtain ⟨op, ha, hs⟩ | ⟨he, hs⟩ := step_cases_of_not_resets h hnr
  · obtain hp | ⟨hi, hp, -, w, hop⟩ := hs.phase
    · exact .inl (by rw [busy, busy, hp, popTurn_phase])
    · exact .inr (.inl ⟨by simp [hp], hi, w, ha _ w hop⟩)
  · obtain ⟨hb, hc⟩ | ⟨hk, -⟩ := hs.completes
    · exact .inr (.inr ⟨hc.phase, hb, he⟩)
    · exact .inl hk

theorem done_writers (h : step s = .next t) (hnr : ¬ Resets s) : t.done = s.done ∨
    (t.done = true ∧ EngineMoves s ∧ s.phase ≠ .idle ∧ t.phase = .idle) ∨
    (t.done = false ∧ ∃ w, HostWrites 0x000 w s ∨ (HostWrites 0x004 w s ∧ w.getLsbD 1 = true)) := by
  obtain ⟨op, ha, hs⟩ | ⟨he, hs⟩ := step_cases_of_not_resets h hnr
  · exact hs.done.imp_right fun ⟨hd, w, hop⟩ => .inr ⟨hd, w, hop.imp (ha _ w) (And.imp_left (ha _ w))⟩
  · obtain ⟨hb, hc⟩ | ⟨-, hk, -⟩ := hs.completes
    · exact .inr (.inl ⟨hc.done, he, hb, hc.phase⟩)
    · exact .inl hk

theorem ovr_writers (h : step s = .next t) (hnr : ¬ Resets s) : t.ovr = s.ovr ∨
    (t.ovr = true ∧ s.phase ≠ .idle ∧ ∃ off w, off ≠ 0x004 ∧ HostWrites off w s) ∨
    (t.ovr = false ∧ ∃ w, HostWrites 0x004 w s ∧ w.getLsbD 8 = true) := by
  obtain ⟨op, ha, hs⟩ | ⟨-, hs⟩ := step_cases_of_not_resets h hnr
  · obtain ho | ⟨ho, hb, off, w, hne, hop⟩ | ⟨ho, w, hop, hbit⟩ := hs.ovr
    · exact .inl ho
    · exact .inr (.inl ⟨ho, hb, off, w, hne, ha _ w hop⟩)
    · exact .inr (.inr ⟨ho, w, ha _ w hop, hbit⟩)
  · exact .inl hs.sameInputs.ovr

theorem config_writers (h : step s = .next t) (hnr : ¬ Resets s) : (t.ready = s.ready ∧ t.ie = s.ie) ∨
    (s.phase = .idle ∧ ∃ w, HostWrites 0x008 w s) := by
  obtain ⟨op, ha, hs⟩ | ⟨-, hs⟩ := step_cases_of_not_resets h hnr
  · exact hs.config.imp_right fun ⟨hi, w, hop⟩ => ⟨hi, w, ha _ w hop⟩
  · exact .inl ⟨hs.sameInputs.ready, hs.sameInputs.ie⟩

/-- Settles O55: of the commands, only those that load a table write `T` or TVALID. -/
theorem tableIsReplacedOnlyByLoads : Obligations.TableIsReplacedOnlyByLoads := by
  intro s t h hnr
  obtain ⟨htab, hv⟩ | ⟨hv, hc, hi⟩ := table_writers h hnr
  · exact ⟨fun hne => absurd htab hne, fun hne => absurd hv hne⟩
  · exact ⟨fun _ => ⟨hv, hi⟩, fun _ => ⟨hv, hc, hi⟩⟩

/-- Settles O56: each clause is the lemma about that flag or result's writers. -/
theorem flagsAndResultsHaveTheirWriters : Obligations.FlagsAndResultsHaveTheirWriters := by
  intro s t h hnr
  rw [statusWord_busy, statusWord_busy]
  refine ⟨(busy_writers h hnr).resolve_left, fun hne => ?_, fun hne => ?_, fun hne => ?_, fun hne => ?_, fun hne => ?_,
    (attempts_writers h hnr).resolve_left, fun hne => ?_, (done_writers h hnr).resolve_left, (ovr_writers h hnr).resolve_left,
    fun hne => ?_, (idx_writers h hnr).resolve_left⟩
  · obtain ⟨hv, -, hi⟩ := (table_writers h hnr).resolve_left fun hk => hne hk.2
    exact ⟨hv, hi⟩
  · exact (crc32_writers h hnr).resolve_left fun hk => hne hk.1
  · exact (crc32_writers h hnr).resolve_left fun hk => hne hk.2
  · exact (crc16_writers h hnr).resolve_left fun hk => hne hk.1
  · exact (crc16_writers h hnr).resolve_left fun hk => hne hk.2
  · exact (completion_writers h hnr).resolve_left fun hk => hne.elim (absurd hk.1) (absurd hk.2)
  · exact (config_writers h hnr).resolve_left fun hk => hne.elim (absurd hk.1) (absurd hk.2)

end Sys2Proof.Machine
end

section
/-! Proof that T while TVALID = 0 and PEND while idle cannot be observed (70_reset_and_hazards.md R160). -/

namespace Sys2Proof.Machine

variable {s t : State} {i : Instr} {T : Vector Byte 256} {p : Word}

/-! ### States that differ only in what cannot be observed -/

/-- The state with another table and another latched word. -/
def withUnspecified (T : Vector Byte 256) (p : Word) (s : State) : State := { s with tab := T, pend := p }

/-- The table and the word may differ: TVALID = 0 and the engine is idle, or they are the state's own. -/
structure Unspecified (T : Vector Byte 256) (p : Word) (s : State) : Prop where
  tab : s.tvalid = true → T = s.tab
  pend : s.phase ≠ .idle → p = s.pend

theorem sameButUnobservable_iff : SameButUnobservable s t ↔ ∃ T p, Unspecified T p s ∧ t = withUnspecified T p s := by
  constructor
  · rintro ⟨rest, tab, pend⟩
    exact ⟨t.tab, t.pend, ⟨tab, pend⟩, rest⟩
  · rintro ⟨T, p, ⟨tab, pend⟩, rfl⟩
    exact ⟨rfl, tab, pend⟩

/-- An update that neither reads nor writes what is unspecified keeps the two states alike. -/
theorem Unspecified.same_of_commutes {s' t' : State} (h : Unspecified T p s) (ht : t' = withUnspecified T p s')
    (hv : s'.tvalid = s.tvalid) (hphase : s'.phase = s.phase) (htab : s'.tab = s.tab) (hpend : s'.pend = s.pend) :
    SameButUnobservable s' t' :=
  sameButUnobservable_iff.mpr ⟨T, p, ⟨by rw [hv, htab]; exact h.tab, by rw [hphase, hpend]; exact h.pend⟩, ht⟩

theorem sameButUnobservable_refl (s : State) : SameButUnobservable s s := ⟨rfl, fun _ => rfl, fun _ => rfl⟩

/-- In a busy state the latched word is specified. -/
theorem Unspecified.eq_setTable (h : Unspecified T p s) (hb : s.phase ≠ .idle) : withUnspecified T p s = setTable T s := by
  rw [withUnspecified, h.pend hb]
  rfl

theorem busy_withUnspecified : busy (withUnspecified T p s) = busy s := rfl

/-! ### What the host and reset see of them -/

theorem Unspecified.regWord_eq (h : Unspecified T p s) (r : RegSlot) : regWord r (withUnspecified T p s) = regWord r s := by
  cases r with
  | tab k =>
    cases hv : s.tvalid with
    | false => simp [regWord, tabWord, withUnspecified, hv]
    | true => simp [regWord, tabWord, withUnspecified, h.tab hv]
  | _ => rfl

theorem Unspecified.pendingFootprint_eq (h : Unspecified T p s) (hb : s.phase ≠ .idle) :
    pendingFootprint (withUnspecified T p s) = pendingFootprint s := by
  rw [h.eq_setTable hb]
  have hf (i : Instr) : footprint i (setTable T s) = footprint i s := by cases i <;> rfl
  simp only [pendingFootprint, setTable_pend, hf]

theorem Unspecified.isHazard_eq (h : Unspecified T p s) (a : Nat) : isHazard (withUnspecified T p s) a = isHazard s a := by
  have hstored : storedImages (withUnspecified T p s) = storedImages s := rfl
  have hready : (withUnspecified T p s).ready = s.ready := rfl
  cases hb : busy s with
  | false => simp only [isHazard, busy_withUnspecified, hb, hstored, hready, Bool.false_and]
  | true => simp only [isHazard, busy_withUnspecified, hstored, hready, h.pendingFootprint_eq ((busy_iff s).mp hb)]

theorem Unspecified.isRacing_eq (h : Unspecified T p s) (a : Nat) : isRacing (withUnspecified T p s) a = isRacing s a := by
  cases hb : busy s with
  | false => simp only [isRacing, busy_withUnspecified, hb, Bool.false_and]
  | true => simp only [isRacing, busy_withUnspecified, h.pendingFootprint_eq ((busy_iff s).mp hb)]

theorem Unspecified.abandoned_eq (h : Unspecified T p s) : abandoned (withUnspecified T p s) = abandoned s := by
  cases hb : busy s with
  | false => simp [abandoned, busy_withUnspecified, hb]
  | true => simp only [abandoned, busy_withUnspecified, h.pendingFootprint_eq ((busy_iff s).mp hb)]

/-- A reset forgets all that is unspecified. -/
theorem Unspecified.resetTurn_eq (h : Unspecified T p s) : resetTurn (withUnspecified T p s) = resetTurn s := by
  simp only [resetTurn, h.abandoned_eq]
  rfl

/-! ### The turns of the host -/

theorem Unspecified.same_writeReg (h : Unspecified T p s) (r : RegSlot) (w : Word) :
    SameButUnobservable (writeReg r w s) (writeReg r w (withUnspecified T p s)) := by
  by_cases hb : busy s = true
  · rw [writeReg, writeReg, busy_withUnspecified, if_pos hb, if_pos hb, writeBusy, writeBusy]
    by_cases hr : r = .status
    · rw [if_pos hr, if_pos hr]
      exact h.same_of_commutes rfl rfl rfl rfl rfl
    · rw [if_neg hr, if_neg hr]
      exact h.same_of_commutes rfl rfl rfl rfl rfl
  · rw [writeReg, writeReg, busy_withUnspecified, if_neg hb, if_neg hb]
    have hready : (withUnspecified T p s).ready = s.ready := rfl
    cases r with
    | cmd => exact ⟨rfl, h.tab, fun _ => rfl⟩
    | imga =>
      rw [writeIdle, writeIdle, hready]
      split <;> exact h.same_of_commutes rfl rfl rfl rfl rfl
    | imgcs =>
      rw [writeIdle, writeIdle, hready]
      split <;> exact h.same_of_commutes rfl rfl rfl rfl rfl
    | _ => exact h.same_of_commutes rfl rfl rfl rfl rfl

theorem Unspecified.same_hostTurn (h : Unspecified T p s) (op : HostOp) :
    SameButUnobservable (hostTurn op s) (hostTurn op (withUnspecified T p s)) := by
  cases op with
  | regRead off width =>
    rw [hostTurn, hostTurn, h.regWord_eq]
    split <;> exact h.same_of_commutes rfl rfl rfl rfl rfl
  | regWrite off width w =>
    rw [hostTurn, hostTurn]
    split
    · exact h.same_writeReg _ w
    · exact h.same_of_commutes rfl rfl rfl rfl rfl
  | memRead a =>
    rw [hostTurn, hostTurn, hostLoad, hostLoad, h.isRacing_eq]
    split <;> exact h.same_of_commutes rfl rfl rfl rfl rfl
  | memWrite a b =>
    rw [hostTurn, hostTurn, hostStore_eq, hostStore_eq, h.isHazard_eq]
    exact h.same_of_commutes rfl rfl rfl rfl rfl
  | waitDone =>
    have hstatus : statusWord (withUnspecified T p s) = statusWord s := rfl
    have hdone : (withUnspecified T p s).done = s.done := rfl
    rw [hostTurn, hostTurn, pollDone, pollDone, hstatus, hdone]
    split <;> exact h.same_of_commutes rfl rfl rfl rfl rfl

/-! ### The turns of the engine -/

theorem firstFailure_setTable (i : Instr) (T : Vector Byte 256) (s : State) : firstFailure i (setTable T s) = firstFailure i s := by
  cases i <;> rfl

theorem accessed_setTable (i : Instr) (T : Vector Byte 256) (s : State) : accessed i (setTable T s) = accessed i s := by
  cases i <;> rfl

theorem same_setTable {s' t' : State} (ht : t' = setTable T s') (h : s'.tvalid = true → T = s'.tab) : SameButUnobservable s' t' := by
  subst ht
  exact ⟨rfl, h, fun _ => rfl⟩

/-- A command that needs no table does not read `T`: it replaces it, or leaves it (10_state.md R53). -/
theorem same_effectOf (hi : needsTable i = false) (hT : s.tvalid = true → T = s.tab) :
    SameButUnobservable (effectOf i s) (effectOf i (setTable T s)) := by
  have replaced {x y : State} (h : y = x) : SameButUnobservable x y := h ▸ sameButUnobservable_refl x
  cases i with
  | nop => exact same_setTable rfl hT
  | ldtab =>
    rw [effectOf, ldtabEffect_eq, ldtabEffect_eq]
    exact replaced rfl
  | decblk adv => cases hi
  | encblk adv => cases hi
  | decimg =>
    rw [effectOf, decimgEffect_eq, decimgEffect_eq]
    exact replaced rfl
  | encimg k =>
    rw [effectOf, encimgEffect_eq, encimgEffect_eq]
    exact replaced rfl
  | getenc v k =>
    rw [effectOf]
    by_cases h : v = k
    · subst h
      rw [getencEffect_same, getencEffect_same]
      exact same_setTable rfl hT
    · rw [getencEffect_cross _ h, getencEffect_cross _ h]
      exact replaced rfl
  | crc32v =>
    rw [effectOf]
    by_cases h : crc32Value s.params.crc32Poly s.crc32Seed (Memory.bytes s.mem s.src.toNat s.len.toNat) = s.crc32Expect
    · rw [crc32vEffect_match s h, crc32vEffect_match (setTable T s) h]
      exact same_setTable rfl hT
    · rw [crc32vEffect_mismatch s h, crc32vEffect_mismatch (setTable T s) h]
      exact same_setTable rfl hT
  | keychk =>
    rw [effectOf, keychkEffect_eq, keychkEffect_eq]
    exact same_setTable rfl hT
  | serdec =>
    rw [effectOf, serdecEffect_eq, serdecEffect_eq]
    exact same_setTable rfl hT
  | serenc =>
    rw [effectOf]
    by_cases h : skips s = true
    · rw [serencEffect_skip s h, serencEffect_skip (setTable T s) h, storeRecord_eq, storeRecord_eq]
      exact same_setTable rfl hT
    · rw [serencEffect_loop s h, serencEffect_loop (setTable T s) h]
      exact same_setTable rfl hT

theorem same_exec (hT : s.tvalid = true → T = s.tab) : SameOutcome (exec i s) (exec i (setTable T s)) := by
  rw [exec_eq, exec_eq, runAccessing, runAccessing, firstFailure_setTable, accessed_setTable, setTable_params]
  cases hf : firstFailure i s with
  | some e => exact same_setTable rfl hT
  | none =>
    dsimp only [SameOutcome]
    split
    · exact same_setTable rfl hT
    · cases hv : s.tvalid with
      | true =>
        rw [hT hv]
        exact sameButUnobservable_refl _
      | false =>
        have hclear := (firstFailure_none_iff i s).mp hf
        have hi : needsTable i = false := by simpa [hv] using (tabled_iff i s).mp hclear.tabled
        exact same_effectOf hi hT

/-- SERENC's attempts do not read `T`. -/
theorem same_attemptSerenc (w : SerWork) (hT : s.tvalid = true → T = s.tab) :
    SameOutcome (attemptSerenc w s) (attemptSerenc w (setTable T s)) := by
  have hcrc : attemptCrc w (setTable T s) = attemptCrc w s := rfl
  have hrecord : attemptRecord w (setTable T s) = attemptRecord w s := rfl
  rw [attemptSerenc_eq, attemptSerenc_eq, hcrc, hrecord, setTable_params, setTable_dst, setTable_serRetryMax]
  dsimp only [SameOutcome]
  split
  · split
    · exact same_setTable rfl hT
    · rw [storeRecord_settleDraws_eq, storeRecord_settleDraws_eq]
      exact same_setTable rfl hT
  · split
    · rw [complete_settleDraws_eq, complete_settleDraws_eq]
      exact same_setTable rfl hT
    · rw [enterLoop_consumeDraws_eq, enterLoop_consumeDraws_eq]
      exact same_setTable rfl hT

theorem Unspecified.same_engineTurn (h : Unspecified T p s) :
    SameOutcome (engineTurn s) (engineTurn (withUnspecified T p s)) := by
  by_cases hp : s.phase = .idle
  · have hp' : (withUnspecified T p s).phase = .idle := hp
    rw [engineTurn, engineTurn, hp, hp']
    exact h.same_of_commutes rfl rfl rfl rfl rfl
  · rw [h.eq_setTable hp, engineTurn, engineTurn, setTable_phase, setTable_pend]
    cases hphase : s.phase with
    | idle => exact absurd hphase hp
    | pending =>
      cases decode s.pend with
      | none => exact same_setTable rfl h.tab
      | some i => exact same_exec h.tab
    | serloop w => exact same_attemptSerenc w h.tab

theorem Unspecified.same_step (h : Unspecified T p s) : SameOutcome (step s) (step (withUnspecified T p s)) := by
  have hpop : Unspecified T p (popTurn s) := ⟨h.tab, h.pend⟩
  have hnext : nextTurn (withUnspecified T p s) = nextTurn s := rfl
  have hcomm : popTurn (withUnspecified T p s) = withUnspecified T p (popTurn s) := rfl
  rw [step, step, hnext, hcomm]
  cases nextTurn s with
  | host op => exact hpop.same_hostTurn op
  | engine => exact hpop.same_engineTurn
  | reset =>
    rw [takeTurn, takeTurn, hpop.resetTurn_eq]
    exact sameButUnobservable_refl _

theorem final_withUnspecified : Final (withUnspecified T p s) ↔ Final s :=
  ⟨fun ⟨h₁, h₂, h₃, h₄⟩ => ⟨h₁, h₂, h₃, h₄⟩, fun ⟨h₁, h₂, h₃, h₄⟩ => ⟨h₁, h₂, h₃, h₄⟩⟩

/-- Settles O59: neither an observation nor a step reads what is unspecified. -/
theorem unspecifiedStateIsUnobservable : Obligations.UnspecifiedStateIsUnobservable := by
  intro s t h
  obtain ⟨T, p, hun, rfl⟩ := sameButUnobservable_iff.mp h
  refine ⟨final_withUnspecified.symm, ?_, rfl, rfl, hun.same_step⟩
  simp only [observe, hun.regWord_eq]
  rfl

end Sys2Proof.Machine
end

section
/-! Proofs of the statements on memory (20_memory.md): the footprints, what an attempt of SERENC stores, where the engine is stuck, and
who sees and writes which byte. -/

namespace Sys2Proof.Machine

variable {s : State} {i : Instr}

/-! ### The footprints -/

/-- The table windows, address by address (R59). -/
theorem inTableWindows_iff (b a : Nat) :
    (∃ r ∈ tableWindows b, inRegion r a = true) ↔ ∃ k < 16, ∃ j < 16, a = b + 0x1EEDF + 320 * k + j := by
  simp only [tableWindows, List.mem_map, List.mem_range, exists_exists_and_eq_and, inRegion_iff, Config.winCount, Config.winLen,
    Config.winStride, Config.xorTableRegion]
  refine exists_congr fun k => and_congr_right fun _ => ⟨fun h => ?_, ?_⟩
  · exact ⟨a - (b + 0x1EEDF + 320 * k), by omega, by omega⟩
  · rintro ⟨j, hj, rfl⟩
    omega

/-- The serial key bytes, address by address (R59). -/
theorem inSerialKeyRegion_iff (p : Params) (b a : Nat) :
    inRegion (serialKeyRegion p b) a = true ↔ ∃ i < 80, a = b + p.serTabOff.val + 10 + i := by
  simp only [inRegion_iff, serialKeyRegion, Config.serIdx0, Config.serLen]
  constructor
  · intro h
    exact ⟨a - (b + p.serTabOff.val + 10), by omega, by omega⟩
  · rintro ⟨i, hi, rfl⟩
    omega

theorem imgSel_eq (v : Variant) (s : State) : imgSel v s = (if v = .a then s.imga else s.imgcs).toNat := by
  cases v <;> rfl

theorem footprint_getenc_same (v : Variant) (s : State) :
    footprint (.getenc v v) s = ⟨[imageRegion (imgSel v s)], [imageRegion s.dst.toNat]⟩ := if_pos rfl

theorem footprint_getenc_cross {v k : Variant} (h : v ≠ k) (s : State) :
    footprint (.getenc v k) s = ⟨imageRegion (imgSel v s) :: tableWindows (imgSel k s),
      [⟨s.scr.toNat, Config.plainSize⟩, imageRegion s.dst.toNat]⟩ := if_neg h

/-- Membership in a region written out as base and length. -/
theorem inRegion_mk (b n a : Nat) : inRegion ⟨b, n⟩ a = true ↔ b ≤ a ∧ a < b + n := inRegion_iff ⟨b, n⟩ a

/-- Settles O11: each row of the table is a list of regions, and a region's addresses are a pair of bounds. -/
theorem footprintsAreTheTable : Obligations.FootprintsAreTheTable := by
  intro s a
  refine ⟨?nop, ?crc32v, ?keychk, fun _ => ?decblk, fun _ => ?encblk, ?ldtab, ?decimg, fun k => ?encimg, fun v => ?copy,
    fun v k hne => ?cross, ?serdec, ?serenc, fun hd => by simp [pendingFootprint, hd]⟩
  case' copy => rw [Reads, Writes, footprint_getenc_same]
  case' cross => rw [Reads, Writes, footprint_getenc_cross hne]
  all_goals
    simp only [Reads, Writes, footprint, List.exists_mem_cons_iff, List.not_mem_nil, false_and, exists_false, or_false,
      inTableWindows_iff, inSerialKeyRegion_iff, inRegion_mk, imageRegion, imgSel_eq, Config.encSize, Config.plainSize, Config.cblk,
      Config.pblk, Config.serLen, Config.serialRecordOffset, not_false_eq_true, and_self]

/-! ### One attempt of SERENC -/

/-- The draws of an attempt replace record bytes 32..77 (45_serial_record.md R131, R135). -/
theorem byteAt_attemptRecord (w : SerWork) (s : State) (i : Nat) : byteAt (attemptRecord w s) i =
    if 32 ≤ i ∧ i < 78 then byteAt (draws 46 s) (i - 32) else byteAt w.buf.toList i := by
  have hlow : (slice w.buf.toList 0 32).length = 32 := length_slice (by simp)
  simp only [attemptRecord, regenerate, Config.serRandLo, Config.serCrcLo, Config.serDraws, byteAt_append, List.length_append, hlow,
    length_draws, byteAt_slice, byteAt_drop, Nat.zero_add]
  rcases Nat.lt_or_ge i 32 with h | h
  · rw [if_pos (by omega), if_pos h, if_pos h, if_neg (by omega)]
  · rcases Nat.lt_or_ge i 78 with h' | h'
    · rw [if_pos h', if_neg (Nat.not_lt.mpr h), if_pos ⟨h, h'⟩]
    · rw [if_neg (by omega), if_neg (by omega), Nat.add_sub_cancel' h']

theorem satIncr_eq (n : Word) : satIncr n = if n = 0xFFFFFFFF#32 then 0xFFFFFFFF#32 else n + 1#32 := by
  rw [satIncr]
  split_ifs with h
  · exact h
  · rfl

theorem budgetSpent_iff (max n : Word) : budgetSpent max n = true ↔ max ≠ 0#32 ∧ max.toNat ≤ n.toNat := by
  simp [budgetSpent]

/-- The platform takes the whole output exactly when it refuses no address of it (R60). -/
theorem refusesOutput_false_iff (s : State) : refuses s.params [⟨s.dst.toNat, Config.serLen⟩] = false ↔
    ∀ j < 80, ∀ h ∈ s.params.refusing, inRegion h (s.dst.toNat + j) = false := by
  rw [← Bool.not_eq_true, refusesOutput_iff]
  simp only [not_exists, not_and, Bool.not_eq_true]

/-- An accepted record whose output the platform takes is stored, and the command completes (45_serial_record.md R136). -/
theorem attemptSerenc_stores {w : SerWork} (ha : accepts w s = true) (hr : refuses s.params [⟨s.dst.toNat, Config.serLen⟩] = false) :
    attemptSerenc w s = .next { s with
      mem := Memory.write s.mem s.dst.toNat (serEncrypt (sealRecord (attemptRecord w s) (attemptCrc w s)) w.key.toList)
      serAttempts := satIncr w.n, supply := s.supply.drop 46, drawPos := s.drawPos + 46, drawCount := s.drawCount + (w.drawn + 46)
      errcode := 0#4, done := true, cmdLast := s.pend, phase := .idle } := by
  rw [attemptSerenc, if_pos ha, if_neg (Bool.eq_false_iff.mp hr), storeRecord_settleDraws_eq]
  rfl

/-- An accepted record whose output the platform refuses leaves the engine stuck (R60). -/
theorem attemptSerenc_stuck {w : SerWork} (ha : accepts w s = true) (hr : refuses s.params [⟨s.dst.toNat, Config.serLen⟩] = true) :
    attemptSerenc w s = .next s := by
  rw [attemptSerenc, if_pos ha, if_pos hr]

/-- A rejected record and a budget that is used up end the command with code 7 (45_serial_record.md R135). -/
theorem attemptSerenc_givesUp {w : SerWork} (ha : ¬ accepts w s = true) (hb : budgetSpent s.serRetryMax (satIncr w.n) = true) :
    attemptSerenc w s = .next { s with
      serAttempts := satIncr w.n, supply := s.supply.drop 46, drawPos := s.drawPos + 46, drawCount := s.drawCount + (w.drawn + 46)
      errcode := 7#4, done := true, cmdLast := s.pend, phase := .idle } := by
  rw [attemptSerenc, if_neg ha, if_pos hb, complete_settleDraws_eq]
  rfl

/-- A rejected record within the budget stays in the loop, its draws not yet counted (45_serial_record.md R135). -/
theorem attemptSerenc_goesOn {w : SerWork} (ha : ¬ accepts w s = true) (hb : ¬ budgetSpent s.serRetryMax (satIncr w.n) = true) :
    attemptSerenc w s = .next { s with
      supply := s.supply.drop 46, drawPos := s.drawPos + 46
      phase := .serloop { buf := record (attemptRecord w s), key := w.key, n := satIncr w.n, drawn := w.drawn + 46 } } := by
  rw [attemptSerenc, if_neg ha, if_neg hb, enterLoop_consumeDraws_eq]
  rfl

/-- Settles O24: the four ends of an attempt, each as one record update. -/
theorem serencAttemptStoresStopsOrStays : Obligations.SerencAttemptStoresStopsOrStays := by
  intro s w he hp
  have hcrc : crc16 s.params.crc16Poly s.params.crc16Init ((attemptRecord w s).take 78) = attemptCrc w (popTurn s) := rfl
  refine ⟨attemptRecord w s, length_attemptRecord w s, fun i _ => byteAt_attemptRecord w s i, ?_⟩
  dsimp only
  rw [hcrc, ← accepts_iff, ← Nat.not_lt, ← accepts_iff, ← satIncr_eq, ← budgetSpent_iff, ← refusesOutput_false_iff,
    step_serloop he hp]
  refine ⟨fun ha hr => ?stores, fun ha hr => ?stuck, fun ha hb => ?givesUp, fun ha hb => ?goesOn⟩
  case stores =>
    have hlen := length_serEncrypt_sealed w (popTurn s) (attemptCrc w (popTurn s)) w.key.toList
    exact ⟨_, attemptSerenc_stores ha hr, fun j hj => Memory.read_write_in (hlen.symm ▸ hj),
      fun a hout => Memory.read_write_out (hlen.symm ▸ hout)⟩
  case stuck => exact attemptSerenc_stuck ha (Bool.not_eq_false _ ▸ hr)
  case givesUp => exact attemptSerenc_givesUp ha hb
  case goesOn => exact ⟨_, toList_record (length_attemptRecord w s), attemptSerenc_goesOn ha hb⟩

/-! ### Where the engine is stuck -/

theorem ne_of_phase_idle {t : State} (hs : s.phase ≠ .idle) (ht : t.phase = .idle) : s ≠ t := fun h => hs (h ▸ ht)

/-- No effect stays in PENDING: the command completes or, for SERENC, enters its loop (40_control.md R93). -/
theorem effectOf_phase_ne_pending (i : Instr) (s : State) : (effectOf i s).phase ≠ .pending := by
  by_cases hi : i = .serenc
  · subst hi
    rw [effectOf]
    by_cases hs : skips s = true
    · rw [serencEffect_skip s hs]
      exact Phase.noConfusion
    · rw [serencEffect_loop s hs]
      exact Phase.noConfusion
  · rw [(completed_effectOf hi s).phase]
    exact Phase.noConfusion

/-- A first step changes nothing exactly where the platform breaks its promise (R60). -/
theorem exec_stuck_iff (hp : s.phase = .pending) : exec i s = .next s ↔ Clear i s ∧ ¬ Honest i s := by
  refine ⟨fun h => ?_, fun ⟨hc, hh⟩ => exec_of_dishonest hc hh⟩
  obtain ⟨e, -, hs⟩ | ⟨-, -, hs⟩ | ⟨hc, hh, -⟩ := exec_next h
  · exact absurd hs (ne_of_phase_idle (by simp [hp]) rfl)
  · exact absurd (hs ▸ hp) (effectOf_phase_ne_pending i s)
  · exact ⟨hc, hh⟩

/-- An attempt changes nothing exactly where the platform refuses the output of an accepted record (R60, 45_serial_record.md R136). -/
theorem attemptSerenc_stuck_iff {w : SerWork} (hp : s.phase = .serloop w) : attemptSerenc w s = .next s ↔
    (attemptCrc w s).toNat < 0x2000 ∧ ∃ j < 80, ∃ h ∈ s.params.refusing, inRegion h (s.dst.toNat + j) = true := by
  rw [← accepts_iff, ← refusesOutput_iff]
  refine ⟨fun h => ?_, fun ⟨ha, hr⟩ => attemptSerenc_stuck ha hr⟩
  have hbusy : s.phase ≠ .idle := by simp [hp]
  obtain ⟨-, -, hs⟩ | ⟨ha, hr, -⟩ | ⟨-, -, hs⟩ | ⟨-, -, hs⟩ := attemptSerenc_next h
  · exact absurd hs (ne_of_phase_idle hbusy rfl)
  · exact ⟨ha, hr⟩
  · exact absurd hs (ne_of_phase_idle hbusy rfl)
  · have hphase : s.phase = .serloop _ := congrArg State.phase hs
    have hdrawn : w.drawn = w.drawn + 46 := congrArg SerWork.drawn (Phase.serloop.inj (hp.symm.trans hphase))
    omega

/-- Settles O9: a step that is not stuck leaves PENDING, leaves SERLOOP, or takes draws. -/
theorem onlyABrokenPromiseStops : Obligations.OnlyABrokenPromiseStops :=
  ⟨fun _ _ => exec_stuck_iff, fun _ _ => attemptSerenc_stuck_iff, step_total⟩

/-! ### Who sees and writes which byte -/

theorem pendingWrites_iff (s : State) (a : Nat) : (∃ r ∈ (pendingFootprint s).wr, inRegion r a = true) ↔ PendingWrites s a := by
  rw [pendingFootprint, PendingWrites]
  cases decode s.pend with
  | none => simp
  | some i => simp [Writes]

/-- A host read of the address races (70_reset_and_hazards.md R165). -/
theorem isRacing_iff (s : State) (a : Nat) : isRacing s a = true ↔ s.phase ≠ .idle ∧ PendingWrites s a := by
  rw [isRacing, Bool.and_eq_true, busy_iff, List.any_eq_true, pendingWrites_iff]

/-- Settles O46: a host load answers the byte of memory, or a free value when it races. -/
theorem hostLoadReturnsMemoryUnlessItRaces : Obligations.HostLoadReturnsMemoryUnlessItRaces := by
  intro s a rest h
  rw [← isRacing_iff, step_host h, hostTurn, hostLoad, popTurn_of_agenda h]
  by_cases hr : isRacing s a.toNat = true
  · exact ⟨_, _, congrArg Host.Outcome.next (if_pos hr), fun hn => absurd hr hn⟩
  · exact ⟨_, s.frees, congrArg Host.Outcome.next (if_neg hr), fun _ => rfl⟩

theorem engineStep_of_engineMoves {t : State} (he : EngineMoves s) (h : step s = .next t) : EngineStep (popTurn s) t := by
  obtain ⟨op, rest, hs, -⟩ | ⟨hr, -⟩ | ⟨-, hs⟩ := step_cases h
  · simp [EngineMoves, hs] at he
  · exact absurd hr (not_resets_of_engineMoves he)
  · exact hs

/-- Settles O52: the engine leaves memory alone, or runs the pending command, whose stores stay in its write footprint. -/
theorem engineWritesOnlyItsWriteFootprint : Obligations.EngineWritesOnlyItsWriteFootprint := by
  intro s t hinv he h a ha
  obtain hm | ⟨i, -, hword, -, hout⟩ := (engineStep_of_engineMoves he h).memory (bteInv_popTurn hinv)
  · rw [hm, popTurn_mem]
  · exact hout a fun ⟨r, hr, hin⟩ => ha ⟨i, hword, r, footprint_popTurn ▸ hr, hin⟩

end Sys2Proof.Machine
end

section
/-! Proofs of the statements on encoding (30_encoding.md): decoding inverts encoding, match and mask decide the command, the illegal
words, and one turn of the polling loop. What is said of words goes through `decode_eq_some_iff`: a word decodes to a command exactly
when its fields are the command's. -/

namespace Sys2Proof

variable {f : CmdFields} {w : Word} {i : Instr}

/-! ### Words and their fields -/

/-- A packed word bit by bit (R77). -/
theorem getLsbD_pack (f : CmdFields) (n : Nat) : (pack f).getLsbD n =
    if n < 8 then f.op.getLsbD n else if n = 8 then f.adv else if n = 9 then f.var else if n = 10 then f.key
    else f.rsv.getLsbD (n - 11) := by
  have hwidth : (pack f).getLsbD n = BitVec.getLsbD (w := 21 + 1 + 1 + 1 + 8) (pack f) n := rfl
  rw [hwidth, pack]
  simp only [BitVec.getLsbD_append, BitVec.getLsbD_ofBool]
  grind

theorem fieldsOf_pack (f : CmdFields) : fieldsOf (pack f) = f := by
  have hop : (pack f).extractLsb' 0 8 = f.op := by
    ext n hn
    simp [getLsbD_pack, hn]
  have hrsv : (pack f).extractLsb' 11 21 = f.rsv := by
    ext n hn
    simp [getLsbD_pack, BitVec.getElem_extractLsb']
    grind
  simp only [fieldsOf, hop, hrsv, getLsbD_pack]
  rfl

theorem pack_fieldsOf (w : Word) : pack (fieldsOf w) = w := by
  refine BitVec.eq_of_getLsbD_eq fun n hn => ?_
  rw [getLsbD_pack]
  simp only [fieldsOf, BitVec.getLsbD_extractLsb']
  grind

theorem fieldsOf_injective : Function.Injective fieldsOf := Function.LeftInverse.injective pack_fieldsOf

theorem fieldsOf_encode (i : Instr) : fieldsOf (encode i) = i.fields := fieldsOf_pack i.fields

theorem encode_eq_iff : encode i = w ↔ fieldsOf w = i.fields := by
  rw [← fieldsOf_injective.eq_iff, fieldsOf_encode, eq_comm]

/-! ### Match and mask -/

@[simp] theorem Variant.bit_ofBit (b : Bool) : (Variant.ofBit b).bit = b := by cases b <;> rfl

theorem Variant.bit_eq_iff {k : Variant} {b : Bool} : k.bit = b ↔ k = if b then .cs else .a := by
  cases k <;> cases b <;> decide

theorem fieldsOf_and (w x : Word) : fieldsOf (w &&& x) = ⟨(fieldsOf w).op &&& (fieldsOf x).op, (fieldsOf w).adv && (fieldsOf x).adv,
    (fieldsOf w).var && (fieldsOf x).var, (fieldsOf w).key && (fieldsOf x).key, (fieldsOf w).rsv &&& (fieldsOf x).rsv⟩ := by
  simp [fieldsOf, BitVec.extractLsb'_and]

/-- A mask of R79 leaves out the field bits that the opcode uses (`a` for ADV, `v` for VAR, `k` for KEY): a word matches exactly when
OP is the opcode, and RSV and the field bits that the mask keeps are 0. -/
theorem and_mask_eq_match_iff (w : Word) (op : BitVec 8) (a v k : Bool) :
    w &&& pack ⟨.allOnes 8, !a, !v, !k, .allOnes 21⟩ = pack ⟨op, false, false, false, 0#21⟩ ↔
      fieldsOf w = ⟨op, a && (fieldsOf w).adv, v && (fieldsOf w).var, k && (fieldsOf w).key, 0#21⟩ := by
  have hkept (b c : Bool) : (c && !b) = false ↔ c = (b && c) := by cases b <;> simp
  rw [← fieldsOf_injective.eq_iff, fieldsOf_and, fieldsOf_pack, fieldsOf_pack]
  obtain ⟨op', adv, var, key, rsv⟩ := fieldsOf w
  simp only [BitVec.and_allOnes, CmdFields.mk.injEq, hkept]

/-- Each row of R79 covers only words that have the fields of its command. -/
theorem fields_command_of_covers : ∀ r ∈ opcodeRows, r.covers w = true → (r.command (fieldsOf w)).fields = fieldsOf w := by
  simp only [opcodeRows, List.forall_mem_cons, OpcodeRow.covers, beq_iff_eq, Instr.fields, Variant.bit_ofBit]
  have hrow (op : BitVec 8) (a v k : Bool) (h : w &&& pack _ = pack _) := ((and_mask_eq_match_iff w op a v k).mp h).symm
  exact ⟨hrow 0x00#8 false false false, hrow 0x01#8 false false false, hrow 0x02#8 true false false, hrow 0x03#8 true false false,
    hrow 0x04#8 false false false, hrow 0x05#8 false false true, hrow 0x06#8 false true true, hrow 0x07#8 false false false,
    hrow 0x08#8 false false false, hrow 0x09#8 false false false, hrow 0x0A#8 false false false, List.forall_mem_nil _⟩

/-! ### Decoding -/

theorem fieldsOf_eq_of_decode (h : decode w = some i) : fieldsOf w = i.fields := by
  obtain ⟨r, hr, rfl⟩ := Option.map_eq_some_iff.mp h
  exact (fields_command_of_covers r (List.mem_of_find?_eq_some hr) (List.find?_some (p := fun r : OpcodeRow => r.covers w) hr)).symm

theorem decode_encode (i : Instr) : decode (encode i) = some i := by
  cases i with
  | decblk adv => cases adv <;> rfl
  | encblk adv => cases adv <;> rfl
  | encimg k => cases k <;> rfl
  | getenc v k => cases v <;> cases k <;> rfl
  | _ => rfl

theorem decode_eq_some_iff : decode w = some i ↔ fieldsOf w = i.fields := by
  refine ⟨fieldsOf_eq_of_decode, fun h => ?_⟩
  rw [← encode_eq_iff.mpr h, decode_encode]

/-- Settles O2: the table finds each command's encoding, and a word is determined by its fields. -/
theorem decodeAndEncodeAgree : Obligations.DecodeAndEncodeAgree :=
  ⟨decode_encode, fun _ _ h => encode_eq_iff.mpr (decode_eq_some_iff.mp h)⟩

/-- Settles O1: each word of R86 is the encoding of its command. -/
theorem legalCommandWordsDecode : Obligations.LegalCommandWordsDecode :=
  ⟨decode_encode .nop, decode_encode .ldtab, decode_encode (.decblk false), decode_encode (.decblk true), decode_encode (.encblk false),
    decode_encode (.encblk true), decode_encode .decimg, decode_encode (.encimg .a), decode_encode (.encimg .cs),
    decode_encode (.getenc .a .a), decode_encode (.getenc .cs .a), decode_encode (.getenc .a .cs), decode_encode (.getenc .cs .cs),
    decode_encode .crc32v, decode_encode .keychk, decode_encode .serdec, decode_encode .serenc⟩

/-- The fields of a command with operands in the fields it uses, as a match under the mask of R79 and one equation per operand. -/
theorem fieldsOf_eq_iff_and_mask (w : Word) (op : BitVec 8) (a v k adv var key : Bool) :
    fieldsOf w = ⟨op, a && adv, v && var, k && key, 0#21⟩ ↔
      w &&& pack ⟨.allOnes 8, !a, !v, !k, .allOnes 21⟩ = pack ⟨op, false, false, false, 0#21⟩ ∧
        (a = true → adv = w.getLsbD 8) ∧ (v = true → var = w.getLsbD 9) ∧ (k = true → key = w.getLsbD 10) := by
  have hbit (b x y : Bool) : (y = (b && x)) ↔ (y = (b && y)) ∧ (b = true → x = y) := by cases b <;> simp [eq_comm]
  have hfields : fieldsOf w = ⟨w.extractLsb' 0 8, w.getLsbD 8, w.getLsbD 9, w.getLsbD 10, w.extractLsb' 11 21⟩ := rfl
  rw [and_mask_eq_match_iff, hfields]
  simp only [CmdFields.mk.injEq, hbit _ adv, hbit _ var, hbit _ key]
  tauto

/-- Settles O3: each clause is one instance of `fieldsOf_eq_iff_and_mask`. -/
theorem matchAndMaskDecideTheCommand : Obligations.MatchAndMaskDecideTheCommand := by
  intro w
  have hplain (op : BitVec 8) := fieldsOf_eq_iff_and_mask w op false false false false false false
  have hadv (op : BitVec 8) (adv : Bool) := fieldsOf_eq_iff_and_mask w op true false false adv false false
  have hkey (k : Variant) := fieldsOf_eq_iff_and_mask w 0x05#8 false false true false false k.bit
  have hvarkey (v k : Variant) := fieldsOf_eq_iff_and_mask w 0x06#8 false true true false v.bit k.bit
  simp only [reduceCtorEq, Bool.false_and, Bool.true_and, false_implies, true_implies, and_true, true_and, Variant.bit_eq_iff]
    at hplain hadv hkey hvarkey
  simp only [decode_eq_some_iff]
  exact ⟨hplain 0x00#8, hplain 0x01#8, hadv 0x02#8, hadv 0x03#8, hplain 0x04#8, hkey, hvarkey, hplain 0x07#8, hplain 0x08#8,
    hplain 0x09#8, hplain 0x0A#8⟩

/-! ### Illegal words -/

/-- The operands of a command fill only the fields it uses. -/
theorem wellFormed_fields (i : Instr) : i.fields.wellFormed = true := by
  cases i with
  | decblk adv => cases adv <;> rfl
  | encblk adv => cases adv <;> rfl
  | encimg k => cases k <;> rfl
  | getenc v k => cases v <;> cases k <;> rfl
  | _ => rfl

/-- Legal fields have a legal opcode, and are 0 where the opcode does not use them (R79). -/
theorem wellFormed_iff : f.wellFormed = true ↔ f.op.toNat ≤ 0x0A ∧ f = ⟨f.op, (f.op == 0x02#8 || f.op == 0x03#8) && f.adv,
    f.op == 0x06#8 && f.var, (f.op == 0x05#8 || f.op == 0x06#8) && f.key, 0#21⟩ := by
  obtain ⟨op, adv, var, key, rsv⟩ := f
  have hused (b x : Bool) : (!x || b) = true ↔ x = (b && x) := by cases b <;> simp
  simp only [CmdFields.wellFormed, CmdFields.opLegal, CmdFields.rsvLegal, CmdFields.advLegal, CmdFields.varLegal, CmdFields.keyLegal,
    Bool.and_eq_true, Bool.or_assoc, hused, decide_eq_true_eq, beq_iff_eq, CmdFields.mk.injEq, true_and]
  tauto

theorem exists_fields_eq_of_wellFormed (h : f.wellFormed = true) : ∃ i : Instr, i.fields = f := by
  obtain ⟨hop, hf⟩ := wellFormed_iff.mp h
  obtain ⟨n, hn, hopcode⟩ : ∃ n ≤ 0x0A, f.op = BitVec.ofNat 8 n := ⟨f.op.toNat, hop, by simp⟩
  rw [hf, hopcode]
  interval_cases n
  exacts [⟨.nop, rfl⟩, ⟨.ldtab, rfl⟩, ⟨.decblk f.adv, rfl⟩, ⟨.encblk f.adv, rfl⟩, ⟨.decimg, rfl⟩,
    ⟨.encimg (.ofBit f.key), by simp [Instr.fields]⟩, ⟨.getenc (.ofBit f.var) (.ofBit f.key), by simp [Instr.fields]⟩,
    ⟨.crc32v, rfl⟩, ⟨.keychk, rfl⟩, ⟨.serdec, rfl⟩, ⟨.serenc, rfl⟩]

/-- The illegal words are those whose fields fail a check of R79 and R80. -/
theorem decode_eq_none_iff : decode w = none ↔ (fieldsOf w).wellFormed = false := by
  rw [Option.eq_none_iff_forall_ne_some, ← Bool.not_eq_true]
  refine ⟨fun h hwf => ?_, fun h i hi => h ?_⟩
  · obtain ⟨i, hi⟩ := exists_fields_eq_of_wellFormed hwf
    exact h i (decode_eq_some_iff.mpr hi.symm)
  · rw [decode_eq_some_iff.mp hi, wellFormed_fields]

/-- Settles O4: the three cases are the checks of the fields, each negated. -/
theorem illegalWordsAreTheThreeCases : Obligations.IllegalWordsAreTheThreeCases := by
  intro w
  have hop : (fieldsOf w).opLegal = false ↔ 0x0B ≤ (w.extractLsb' 0 8).toNat := by
    simp [CmdFields.opLegal, fieldsOf, Nat.succ_le_iff]
  have hrsv : (fieldsOf w).rsvLegal = false ↔ w.extractLsb' 11 21 ≠ 0#21 := by simp [CmdFields.rsvLegal, fieldsOf]
  have hadv : (fieldsOf w).advLegal = false ↔ w.getLsbD 8 = true ∧ w.extractLsb' 0 8 ≠ 0x02#8 ∧ w.extractLsb' 0 8 ≠ 0x03#8 := by
    simp [CmdFields.advLegal, fieldsOf, and_assoc]
  have hvar : (fieldsOf w).varLegal = false ↔ w.getLsbD 9 = true ∧ w.extractLsb' 0 8 ≠ 0x06#8 := by
    simp [CmdFields.varLegal, fieldsOf]
  have hkey : (fieldsOf w).keyLegal = false ↔ w.getLsbD 10 = true ∧ w.extractLsb' 0 8 ≠ 0x05#8 ∧ w.extractLsb' 0 8 ≠ 0x06#8 := by
    simp [CmdFields.keyLegal, fieldsOf, and_assoc]
  simp only [decode_eq_none_iff, CmdFields.wellFormed, Bool.and_eq_false_iff, or_assoc, hop, hrsv, hadv, hvar, hkey]

end Sys2Proof

/-! ### The polling loop -/

namespace Sys2Proof.Machine

/-- Settles O47: a turn of the loop is one record update, by the DONE that it reads. -/
theorem pollingEndsAtDone : Obligations.PollingEndsAtDone := by
  intro s rest h
  rw [step_host h, hostTurn, pollDone, popTurn_of_agenda h]
  by_cases hd : s.done = true
  · exact ⟨_, congrArg Host.Outcome.next (if_pos hd), rfl, fun _ => rfl, fun hn => absurd hd (Bool.eq_false_iff.mp hn)⟩
  · exact ⟨_, congrArg Host.Outcome.next (if_neg hd), rfl, fun hn => absurd hn hd, fun _ => rfl⟩

end Sys2Proof.Machine
end

section
/-! Proofs of the statements on control (40_control.md): the engine's turn and the ordered checks, and the host's writes to the register
port. -/

namespace Sys2Proof.Machine

variable {s : State} {i : Instr} {off : Nat} {w : Word} {rest : List Turn}

/-! ### The engine's turn -/

/-- Settles O5: one equation of the step for each phase. -/
theorem stepRunsTheDecodedCommand : Obligations.StepRunsTheDecodedCommand :=
  fun _ he => ⟨fun _ => step_pending he, fun _ => step_serloop he, step_idle he⟩

/-- Placing a word is issuing it, with the engine's turn put first. -/
theorem withFetchWord_toNat (s : State) (w : Word) : s.withFetchWord 32 w.toNat = { issue w s with agenda := .engine :: s.agenda } := by
  rw [State.withFetchWord, placeCommand, Nat.mod_eq_of_lt w.isLt, BitVec.ofNat_toNat, BitVec.setWidth_eq]
  rfl

/-- Settles O6: the placed word is pending, the engine has the next turn, and the word decodes to its command. -/
theorem placedCommandRunsNext : Obligations.PlacedCommandRunsNext := by
  intro s i
  rw [withFetchWord_toNat]
  exact step_pending (.inr ⟨s.agenda, rfl⟩) rfl (decode_encode i)

/-! ### The ordered checks -/

/-- The first check that fails completes the command with its code, and nothing else happens (R94, R95). -/
theorem step_of_failure {e : ErrCode} (he : EngineMoves s) (hp : s.phase = .pending) (hd : decode s.pend = some i)
    (hf : firstFailure i s = some e) : step s = .next
      { s with agenda := s.agenda.tail, errcode := codeOf e, done := true, cmdLast := s.pend, phase := .idle } := by
  rw [step_pending he hp hd, exec_of_failure (firstFailure_popTurn.trans hf)]
  rfl

/-- Settles O7: each clause names the first check that fails. -/
theorem checksFailInTheStatedOrder : Obligations.ChecksFailInTheStatedOrder := by
  intro s he hp
  refine ⟨step_illegal he hp, fun i hd => ?_⟩
  refine ⟨fun hl => ?notLoaded, fun hl ht => ?noTable, fun hl ht ha => ?busError, fun hl ht ha hs => ?overlap⟩
  case notLoaded => exact step_of_failure (e := .notLoaded) he hp hd (by simp [firstFailure_eq, hl])
  case noTable => exact step_of_failure (e := .noTable) he hp hd (by simp [firstFailure_eq, hl, ht])
  case busError => exact step_of_failure (e := .busError) he hp hd (by simp [firstFailure_eq, hl, ht, ha])
  case overlap => exact step_of_failure (e := .overlap) he hp hd (by simp [firstFailure_eq, hl, ht, ha, hs])

/-- The first step of a command other than SERENC completes it, by a failed check or by its effect, if the engine is not stuck (R93). -/
theorem exec_completes (hi : i ≠ .serenc) (hh : Honest i s) : ∃ t, exec i s = .next t ∧ Completed s t := by
  obtain ⟨t, ht⟩ := exec_total i s
  refine ⟨t, ht, ?_⟩
  obtain ⟨e, -, rfl⟩ | ⟨-, -, rfl⟩ | ⟨-, hstuck, -⟩ := exec_next ht
  · exact completed_complete e s
  · exact completed_effectOf hi s
  · exact absurd hh hstuck

/-- Settles O8: the turn taken off the agenda changes nothing of what makes the first step complete. -/
theorem everyOtherCommandCompletesAtOnce : Obligations.EveryOtherCommandCompletesAtOnce := by
  rintro s i ⟨he, hp, hd⟩ hi hh
  obtain ⟨t, ht, hphase, hdone, hlast⟩ := exec_completes hi (honest_popTurn.mpr hh)
  exact ⟨t, (step_pending he hp hd).trans ht, hphase, hdone, hlast⟩

/-! ### NOP -/

/-- No check can fail a command without operands or footprint (R96). -/
theorem clear_nop (s : State) : Clear .nop s :=
  (firstFailure_none_iff .nop s).mp
    (by simp [firstFailure, needsReady, needsTable, admits, footprint, overlaps, meetsAny, crossKeyOverlap])

theorem honest_nop (s : State) : Honest .nop s := by
  simp [Honest, Accesses, Reads, Writes, footprint]

/-- Settles O12: NOP's checks pass in every state, its effect is the completion, and its only word is the encoding of NOP. -/
theorem nopOnlyCompletes : Obligations.NopOnlyCompletes := fun s =>
  ⟨exec_of_clear (clear_nop s) (honest_nop s), fun hd => (decodeAndEncodeAgree.2 s.pend .nop hd).symm⟩

/-! ### Writes to the register port -/

/-- The accesses that the port accepts (R90). -/
theorem portAccepts_iff {width : Nat} : portAccepts off width = true ↔ width = 32 ∧ off % 4 = 0 ∧ off < 0x200 := by
  simp [portAccepts, and_assoc]

theorem writeReg_of_idle (hp : s.phase = .idle) (r : RegSlot) (w : Word) : writeReg r w s = writeIdle r w s := by
  rw [writeReg, if_neg fun hb => (busy_iff s).mp hb hp]

theorem writeReg_of_busy (hp : s.phase ≠ .idle) (r : RegSlot) (w : Word) : writeReg r w s = writeBusy r w s := by
  rw [writeReg, if_pos ((busy_iff s).mpr hp)]

theorem step_regWrite (h : s.agenda = .host (.regWrite off 32 w) :: rest) (hw : off % 4 = 0) (hlt : off < 0x200) :
    step s = .next (writeReg (slotAt off) w { s with agenda := rest }) := by
  rw [step_host h, hostTurn, if_pos (portAccepts_iff.mpr ⟨rfl, hw, hlt⟩), popTurn_of_agenda h]

theorem step_regWrite_idle (h : s.agenda = .host (.regWrite off 32 w) :: rest) (hp : s.phase = .idle) (hw : off % 4 = 0)
    (hlt : off < 0x200) : step s = .next (writeIdle (slotAt off) w { s with agenda := rest }) :=
  (step_regWrite h hw hlt).trans (congrArg Host.Outcome.next (writeReg_of_idle (s := { s with agenda := rest }) hp _ _))

theorem step_regWrite_busy (h : s.agenda = .host (.regWrite off 32 w) :: rest) (hp : s.phase ≠ .idle) (hw : off % 4 = 0)
    (hlt : off < 0x200) : step s = .next (writeBusy (slotAt off) w { s with agenda := rest }) :=
  (step_regWrite h hw hlt).trans (congrArg Host.Outcome.next (writeReg_of_busy (s := { s with agenda := rest }) hp _ _))

theorem slotAt_eq_status_iff : slotAt off = .status ↔ off = 0x004 :=
  ⟨fun h => by simpa [registerMap] using mem_registerMap_of_slotAt h (by simp) (by simp), fun h => h ▸ rfl⟩

/-- DONE and OVR are cleared by writing 1 (R88). -/
theorem writeStatus_eq (w : Word) (s : State) : writeStatus w s = { s with
    done := (if w.getLsbD 1 then false else s.done), ovr := (if w.getLsbD 8 then false else s.ovr) } := by
  rw [writeStatus]
  cases w.getLsbD 1 <;> cases w.getLsbD 8 <;> simp

/-- READY is set by writing 1 (R88). -/
theorem writeCfg_eq (w : Word) (s : State) : writeCfg w s = { s with
    ready := (if w.getLsbD 0 then true else s.ready), ie := w.getLsbD 1 } := by
  rw [writeCfg]
  cases w.getLsbD 0 <;> simp

/-- READY locks the image bases (R88). -/
theorem writeIdle_imga (w : Word) (s : State) : writeIdle .imga w s = { s with imga := (if s.ready then s.imga else w) } := by
  rw [writeIdle]
  split <;> rfl

theorem writeIdle_imgcs (w : Word) (s : State) : writeIdle .imgcs w s = { s with imgcs := (if s.ready then s.imgcs else w) } := by
  rw [writeIdle]
  split <;> rfl

/-- Above the registers stand only the TAB window and unmapped offsets, which no write changes (R88). -/
theorem writeIdle_of_le (h : 0x048 ≤ off) (w : Word) (s : State) : writeIdle (slotAt off) w s = s := by
  rw [slotAt_eq off h]
  split <;> rfl

/-- Settles O39: the write is an issue, which leaves the engine busy. -/
theorem issueLatchesTheWord : Obligations.IssueLatchesTheWord := by
  intro s w rest h hp
  exact ⟨_, step_regWrite_idle h hp rfl (by decide), rfl, statusWord_busy _⟩

/-- Settles O40: only the write to STATUS is not dropped. -/
theorem writeWhileBusyIsDropped : Obligations.WriteWhileBusyIsDropped := by
  intro s off w rest h hp hw hlt
  rw [step_regWrite_busy h hp hw hlt, writeBusy]
  refine ⟨fun ho => ?_, fun ho => ?_⟩
  · rw [if_pos (slotAt_eq_status_iff.mpr ho), writeStatus_eq]
  · rw [if_neg (mt slotAt_eq_status_iff.mp ho)]

/-- Settles O41: the port makes the write of the register that the map puts at the offset. -/
theorem writeWhileIdleFollowsTheMap : Obligations.WriteWhileIdleFollowsTheMap := by
  intro s off w rest h hp hw hlt u gives
  have hwrite {o : Nat} {t : State} (ht : writeIdle (slotAt o) w u = t) (ho : off = o) : gives t := by
    subst o t
    exact step_regWrite_idle rfl hp hw hlt
  refine ⟨hwrite rfl, hwrite (writeStatus_eq w u), hwrite (writeCfg_eq w u), hwrite rfl, hwrite rfl, hwrite rfl, hwrite rfl,
    hwrite (writeIdle_imga w u), hwrite (writeIdle_imgcs w u), hwrite rfl, hwrite rfl, hwrite rfl, hwrite rfl, hwrite rfl, ?_⟩
  rintro (ho | ho | ho | ho | ho)
  exacts [hwrite rfl ho, hwrite rfl ho, hwrite rfl ho, hwrite rfl ho, hwrite (writeIdle_of_le ho w u) rfl]

/-- Settles O44: the port accepts none of these accesses, read or write. -/
theorem refusedAccessOnlyMarks : Obligations.RefusedAccessOnlyMarks := by
  intro s off width w rest hbad h
  have hrefused : ¬ portAccepts off width = true := by
    rw [portAccepts_iff]
    omega
  obtain h | h := h <;> rw [step_host h, hostTurn, if_neg hrefused, popTurn_of_agenda h, markRefused]

end Sys2Proof.Machine
end

section
/-! Proofs of the statements on checksums (41_checksum.md): what CRC32V and KEYCHK report, the residue of the CRC-16, and the single-bit
errors that the CRC-32 detects. -/

namespace Sys2Proof.Machine

variable {w : Nat} {poly c : BitVec w}

/-! ### Sequences with one byte replaced -/

theorem byteAt_set {X : Bytes} {k : Nat} (hk : k < X.length) (b : Byte) (i : Nat) :
    byteAt (X.set k b) i = if i = k then b else byteAt X i := by
  by_cases hi : i = k
  · simp [byteAt, hi, hk]
  · simp [byteAt, hi, List.getElem?_set_ne (Ne.symm hi)]

theorem set_byteAt {X : Bytes} {k : Nat} (hk : k < X.length) : X.set k (byteAt X k) = X := by
  rw [byteAt_of_lt hk, List.set_getElem_self]

/-! ### Bits of a reflected CRC -/

theorem crcBit_of_even (h : c.getLsbD 0 = false) : crcBit poly c = c >>> 1 := by
  simp [crcBit, h]

/-- Zero bits at the bottom of the register shift out without the polynomial (R98, R100). -/
theorem repeat_crcBit_of_low_zero {n : Nat} (h : ∀ i < n, c.getLsbD i = false) : Nat.repeat (crcBit poly) n c = c >>> n := by
  induction n with
  | zero => rfl
  | succ n ih =>
    have hn : (c >>> n).getLsbD 0 = false := by simpa using h n n.lt_succ_self
    rw [Nat.repeat, ih fun i hi => h i (Nat.lt_succ_of_lt hi), crcBit_of_even hn, BitVec.shiftRight_add]

/-- Where the polynomial has its x^0 term, the bit shifted out comes back as the top bit (R102). -/
theorem msb_crcBit (h : poly.msb = true) : (crcBit poly c).msb = c.getLsbD 0 := by
  cases hc : c.getLsbD 0 <;> simp [crcBit, hc, h]

/-- Where the polynomial has its x^0 term, no bit of the register is lost (R102). -/
theorem crcBit_injective (h : poly.msb = true) : Function.Injective (crcBit poly) := by
  intro a b hab
  have hlow : a.getLsbD 0 = b.getLsbD 0 := by rw [← msb_crcBit h, hab, msb_crcBit h]
  have hhigh : a >>> 1 = b >>> 1 := by
    cases hb : b.getLsbD 0 <;> simpa [crcBit, hb, hlow.trans hb] using hab
  apply BitVec.eq_of_getLsbD_eq
  rintro (_ | i) -
  · exact hlow
  · simpa [Nat.add_comm] using congrArg (·.getLsbD i) hhigh

/-! ### Bytes of a reflected CRC -/

theorem repeat_crcBit_injective (h : poly.msb = true) (n : Nat) : Function.Injective (Nat.repeat (crcBit poly) n) := by
  induction n with
  | zero => exact fun _ _ => id
  | succ n ih => exact (crcBit_injective h).comp ih

theorem crcByte_injective_register (h : poly.msb = true) (b : Byte) : Function.Injective (crcByte poly · b) :=
  fun _ _ hab => (BitVec.xor_left_inj _).mp (repeat_crcBit_injective h 8 hab)

theorem setWidth_injective (hw : 8 ≤ w) : Function.Injective (BitVec.setWidth w : Byte → BitVec w) := fun a b hab => by
  rw [← BitVec.setWidth_eq a, ← BitVec.setWidth_setWidth_of_le a hw, hab, BitVec.setWidth_setWidth_of_le b hw, BitVec.setWidth_eq]

theorem crcByte_injective_byte (h : poly.msb = true) (hw : 8 ≤ w) (c : BitVec w) : Function.Injective (crcByte poly c) :=
  fun _ _ hab => setWidth_injective hw ((BitVec.xor_right_inj c).mp (repeat_crcBit_injective h 8 hab))

theorem foldl_crcByte_injective_register (h : poly.msb = true) (X : Bytes) : Function.Injective (X.foldl (crcByte poly)) := by
  induction X with
  | nil => exact fun _ _ => id
  | cons b X ih => exact ih.comp (crcByte_injective_register h b)

/-- All other bytes being the same, two values of byte `k` leave two different registers. -/
theorem foldl_crcByte_set_injective (h : poly.msb = true) (hw : 8 ≤ w) {X : Bytes} {k : Nat} (hk : k < X.length) :
    Function.Injective fun b => (X.set k b).foldl (crcByte poly) c := by
  intro a b hab
  simp only [List.set_eq_take_append_cons_drop, if_pos hk, List.foldl_append, List.foldl_cons] at hab
  exact crcByte_injective_byte h hw _ (foldl_crcByte_injective_register h _ hab)

/-! ### The functions -/

/-- Settles O27: the two registers are computed. -/
theorem referenceCrcsHaveTheirCheckValues : Obligations.ReferenceCrcsHaveTheirCheckValues :=
  ⟨by decide +kernel, by decide +kernel⟩

/-- A byte that equals the low byte of the register clears it, so the register moves down by one byte. -/
theorem crcByte_low (poly c : Half) : crcByte poly c (c.extractLsb' 0 8) = c >>> 8 := by
  have hlow : ∀ i < 8, (c ^^^ (c.extractLsb' 0 8).setWidth 16).getLsbD i = false := fun i hi => by
    simp [hi, show i < 16 by omega]
  have hhigh : (c ^^^ (c.extractLsb' 0 8).setWidth 16) >>> 8 = c >>> 8 := by
    ext i hi
    simp
  rw [crcByte, repeat_crcBit_of_low_zero hlow, hhigh]

/-- Settles O26: each of the two bytes clears the low byte of the register, and the register moves down by both. -/
theorem crc16ResidueIsZero : Obligations.Crc16ResidueIsZero := by
  intro poly init X c
  have hhigh : c.extractLsb' 8 8 = (c >>> 8).extractLsb' 0 8 := by
    ext i hi
    simp
  calc crc16 poly init (X ++ [c.extractLsb' 0 8, c.extractLsb' 8 8])
    _ = crcByte poly (crcByte poly c (c.extractLsb' 0 8)) (c.extractLsb' 8 8) := List.foldl_append
    _ = (c >>> 8) >>> 8 := by rw [crcByte_low, hhigh, crcByte_low]
    _ = 0#16 := by rw [← BitVec.shiftRight_add]; exact BitVec.ushiftRight_eq_zero (by decide)

/-- Settles O28: the register is injective in each byte. -/
theorem crc32DetectsEverySingleBitFlip : Obligations.Crc32DetectsEverySingleBitFlip := by
  intro poly seed X k bit hpoly hk hbit hcrc
  have hbyte : byteAt X k ^^^ (1#8 <<< bit) = byteAt X k := by
    apply foldl_crcByte_set_injective (poly := poly) (c := seed) (BitVec.msb_eq_getLsbD_last poly ▸ hpoly) (by decide) hk
    dsimp only
    rw [set_byteAt hk]
    exact BitVec.not_inj.mp hcrc
  have hzero : 1#8 <<< bit = 0#8 := (BitVec.xor_right_inj (byteAt X k)).mp (hbyte.trans BitVec.xor_zero.symm)
  have hset : (1#8 <<< bit).getLsbD bit = true := by simp [hbit]
  simp [hzero] at hset

/-! ### The commands -/

/-- Settles O13: the effect of CRC32V, by whether the two values are equal. -/
theorem crc32vReportsTheComparison : Obligations.Crc32vReportsTheComparison := by
  intro s hc hh r
  rw [exec_of_clear hc hh, effectOf]
  refine ⟨fun hr => ?agrees, fun hr => ?differs, fun hlen => ?empty⟩
  case agrees => rw [crc32vEffect_match s hr, hr]
  case differs => exact congrArg _ (crc32vEffect_mismatch s hr)
  case empty =>
    have hnone : Memory.bytes s.mem s.src.toNat s.len.toNat = [] := by
      rw [hlen]
      rfl
    exact congrArg (crc32Value s.params.crc32Poly s.crc32Seed) hnone

/-- Settles O14: the effect of KEYCHK. -/
theorem keychkReportsTheRecordCrc : Obligations.KeychkReportsTheRecordCrc := fun s hc hh =>
  (exec_of_clear hc hh).trans (congrArg _ (keychkEffect_eq s))

end Sys2Proof.Machine
end

section
/-! What decryption undoes (42_block_transform.md R106 to R108, 45_serial_record.md R130, R132), and the proof that an accepted record
decrypts to a valid one (R137). -/

namespace Sys2Proof.Machine

/-! ### The mirror -/

theorem inMirrorPair_mirror {n p : Nat} (hp : p < n) : inMirrorPair n (n - 1 - p) = inMirrorPair n p := by
  rw [inMirrorPair, inMirrorPair, Bool.or_comm, show n - 1 - (n - 1 - p) = p by omega]

theorem inMirrorPair_zero {n : Nat} (hn : 2 ≤ n) : inMirrorPair n 0 = true := by
  simp only [inMirrorPair, Bool.or_eq_true, Bool.and_eq_true, decide_eq_true_eq]
  exact .inl ⟨rfl, by omega⟩

/-- Swapping the pairs again puts them back (R107). -/
theorem mirror4_mirror4 (X : Bytes) : mirror4 (mirror4 X) = X := by
  refine bytes_ext (by simp) fun p hp => ?_
  simp only [length_mirror4] at hp
  rw [byteAt_mirror4 (by simpa using hp), length_mirror4, byteAt_mirror4 hp, byteAt_mirror4 (by omega), inMirrorPair_mirror hp]
  split_ifs
  · rw [show X.length - 1 - (X.length - 1 - p) = p by omega]
  · rfl

/-- The first and the last byte are a pair; in a shorter sequence than two bytes they are the same. -/
theorem byteAt_mirror4_zero (X : Bytes) : byteAt (mirror4 X) 0 = byteAt X (X.length - 1) := by
  rcases Nat.eq_zero_or_pos X.length with hn | hn
  · rw [byteAt_of_le (by simp [hn]), byteAt_of_le (by simp [hn])]
  · rw [byteAt_mirror4 hn]
    split_ifs with hpair
    · rfl
    · have hshort : X.length < 2 := Nat.lt_of_not_le fun h => hpair (inMirrorPair_zero h)
      rw [show X.length - 1 = 0 by omega]

theorem byteAt_mirror4_last (X : Bytes) : byteAt (mirror4 X) (X.length - 1) = byteAt X 0 := by
  rw [← length_mirror4 X, ← byteAt_mirror4_zero, mirror4_mirror4]

theorem mirror4_set_zero (X : Bytes) (b : Byte) : mirror4 (X.set 0 b) = (mirror4 X).set (X.length - 1) b := by
  refine bytes_ext (by simp) fun p hp => ?_
  simp only [length_mirror4, List.length_set] at hp
  rw [byteAt_set (by rw [length_mirror4]; omega)]
  split_ifs with hlast
  · have hfirst := byteAt_mirror4_last (X.set 0 b)
    rwa [List.length_set, byteAt_set (by omega), if_pos rfl, ← hlast] at hfirst
  · rw [byteAt_mirror4 (by simpa using hp), byteAt_mirror4 hp, List.length_set]
    split_ifs with hpair
    · rw [byteAt_set (by omega), if_neg (by omega)]
    · have hp0 : p ≠ 0 := by
        rintro rfl
        exact hpair (inMirrorPair_zero (by omega))
      rw [byteAt_set (by omega), if_neg hp0]

/-! ### The shifts -/

/-- Past the end of the sequence, zero bits are shifted in (R108). -/
theorem byteAt_shl3_eq {X : Bytes} {i : Nat} (h : i < X.length) :
    byteAt (shl3 X) i = (byteAt X i <<< 3) ||| (byteAt X (i + 1) >>> 5) := by
  rw [byteAt_shl3 h]
  split_ifs with hi
  · rfl
  · simp [byteAt_of_le (Nat.le_of_not_lt hi)]

theorem shr3_shl3_first_byte (x y : Byte) : ((x <<< 3) ||| (y >>> 5)) >>> 3 = x &&& 0x1F#8 := by
  ext i hi
  interval_cases i <;> simp

theorem shr3_shl3_later_byte (x y z : Byte) :
    (((y <<< 3) ||| (z >>> 5)) >>> 3) ||| (((x <<< 3) ||| (y >>> 5)) <<< 5) = y := by
  ext i hi
  interval_cases i <;> simp

/-- The right shift undoes the left shift, but for the three bits that went out at the top (R106, R108). -/
theorem shr3_shl3 (X : Bytes) : shr3 (shl3 X) = X.set 0 (byteAt X 0 &&& 0x1F#8) := by
  refine bytes_ext (by simp) fun i hi => ?_
  simp only [length_shr3, length_shl3] at hi
  rw [byteAt_shr3 (by simpa using hi), byteAt_set (by omega)]
  rcases i with _ | i
  · rw [if_pos rfl, if_pos rfl, byteAt_shl3_eq hi, shr3_shl3_first_byte]
  · rw [if_neg i.succ_ne_zero, if_neg i.succ_ne_zero, Nat.add_sub_cancel, byteAt_shl3_eq hi, byteAt_shl3_eq (by omega),
      shr3_shl3_later_byte]

/-! ### The serial record -/

theorem xorSeq_xorSeq (X K : Bytes) : xorSeq (xorSeq X K) K = X := by
  refine bytes_ext (by simp) fun i hi => ?_
  simp only [length_xorSeq] at hi
  simp only [xorSeq, length_seqOf, byteAt_seqOf, if_pos hi]
  rw [BitVec.xor_assoc, BitVec.xor_self, BitVec.xor_zero]

/-- Decryption returns the record, but for bits 7:5 of its last byte (45_serial_record.md R137). -/
theorem serDecrypt_serEncrypt (B K : Bytes) :
    serDecrypt (serEncrypt B K) K = B.set (B.length - 1) (byteAt B (B.length - 1) &&& 0x1F#8) := by
  rw [serDecrypt, serEncrypt, xorSeq_xorSeq, shr3_shl3, mirror4_set_zero, mirror4_mirror4, length_mirror4, byteAt_mirror4_zero]

theorem length_sealRecord {B : Bytes} (hB : B.length = 80) (c : Half) : (sealRecord B c).length = 80 := by
  rw [sealRecord, List.length_append, length_slice (by rw [hB]; decide)]
  rfl

/-- A CRC below 2^13 leaves bits 7:5 of the last byte 0. -/
theorem and_high_byte_of_lt {c : Half} (hc : c.toNat < 0x2000) : c.extractLsb' 8 8 &&& 0x1F#8 = c.extractLsb' 8 8 := by
  apply BitVec.eq_of_toNat_eq
  rw [BitVec.toNat_and, BitVec.extractLsb'_toNat, Nat.shiftRight_eq_div_pow]
  exact (Nat.and_two_pow_sub_one_eq_mod _ 5).trans (by omega)

/-- So a record sealed with such a CRC comes back whole (R137). -/
theorem serDecrypt_serEncrypt_sealRecord {B : Bytes} (hB : B.length = 80) {c : Half} (hc : c.toNat < 0x2000) (K : Bytes) :
    serDecrypt (serEncrypt (sealRecord B c) K) K = sealRecord B c := by
  have hlen := length_sealRecord hB c
  have hlast : byteAt (sealRecord B c) 79 = c.extractLsb' 8 8 := by
    rw [sealRecord, byteAt_append, length_slice (by rw [hB]; decide)]
    rfl
  rw [serDecrypt_serEncrypt, hlen, hlast, and_high_byte_of_lt hc, ← hlast, set_byteAt (by rw [hlen]; decide)]

theorem take_sealRecord {B : Bytes} (hB : B.length = 80) (c : Half) {n : Nat} (hn : n ≤ 78) :
    (sealRecord B c).take n = B.take n := by
  have hlow : (slice B 0 78).length = 78 := length_slice (by omega)
  rw [sealRecord, Config.serCrcLo, List.take_append_of_le_length (by omega), slice, List.drop_zero, List.take_take, Nat.min_eq_left hn]

/-- The draws of an attempt leave the record's first 32 bytes (45_serial_record.md R131). -/
theorem take_attemptRecord (w : SerWork) (s : State) : (attemptRecord w s).take 32 = w.buf.toList.take 32 := by
  have hlow : (slice w.buf.toList 0 32).length = 32 := length_slice (by simp)
  rw [attemptRecord, regenerate, List.append_assoc, Config.serRandLo, List.take_left' hlow]
  rfl

/-- An attempt that completes with code 0 has accepted its record and leaves it, sealed and encrypted, at DST (R135, R136). -/
theorem attemptSerenc_ok {s t : State} {w : SerWork} (hp : s.phase = .serloop w) (h : attemptSerenc w s = .next t)
    (hidle : t.phase = .idle) (hcode : t.errcode = 0#4) : (attemptCrc w s).toNat < 0x2000 ∧
      Memory.bytes t.mem s.dst.toNat 80 = serEncrypt (sealRecord (attemptRecord w s) (attemptCrc w s)) w.key.toList := by
  obtain ⟨ha, -, rfl⟩ | ⟨-, -, rfl⟩ | ⟨-, -, rfl⟩ | ⟨-, -, rfl⟩ := attemptSerenc_next h
  case inl =>
    refine ⟨(accepts_iff w s).mp ha, ?_⟩
    have hstored := Memory.bytes_write s.mem s.dst.toNat
      (serEncrypt (sealRecord (attemptRecord w s) (attemptCrc w s)) w.key.toList)
    rwa [length_serEncrypt_sealed] at hstored
  case inr.inl => cases hp.symm.trans hidle
  case inr.inr.inl => cases hcode
  case inr.inr.inr => cases hidle

/-- Settles O37: what is stored decrypts to the sealed record itself, whose CRC is a residue. -/
theorem acceptedRecordDecryptsValid : Obligations.AcceptedRecordDecryptsValid := by
  intro s t w he hp hstep hidle hcode D
  obtain ⟨hcrc, hmem⟩ := attemptSerenc_ok (s := popTurn s) hp ((step_serloop he hp).symm.trans hstep) hidle hcode
  have hlen := length_attemptRecord w s
  have hD : D = sealRecord (attemptRecord w s) (attemptCrc w s) :=
    (congrArg (serDecrypt · w.key.toList) hmem).trans (serDecrypt_serEncrypt_sealRecord hlen hcrc _)
  rw [hD, take_sealRecord hlen _ (by decide), take_sealRecord hlen _ (by decide)]
  exact ⟨crc16ResidueIsZero _ _ _, hcrc, take_attemptRecord w s⟩

end Sys2Proof.Machine
end

section
/-! Proofs of the statements on the block transform (42_block_transform.md): what DECBLK and ENCBLK store, the mirror and the two shifts,
and the round trip of a block and of a whole image (44_firmware_codec.md R124). -/

namespace Sys2Proof.Machine

/-! ### The commands -/

/-- What a store of a sequence leaves in memory: the sequence from its address on, every other byte as before. -/
theorem Memory.read_write_region (m : Memory) (a : Nat) {X : Bytes} {n : Nat} (hX : X.length = n) :
    (∀ j < n, read (write m a X) (a + j) = byteAt X j) ∧ ∀ b, (b < a ∨ a + n ≤ b) → read (write m a X) b = read m b := by
  subst hX
  exact ⟨fun j hj => read_write_in hj, fun b hb => read_write_out hb⟩

/-- Settles O16: the effect of DECBLK is one store of 64 bytes. -/
theorem decblkDecryptsOneBlock : Obligations.DecblkDecryptsOneBlock := fun adv s hc hh =>
  ⟨_, (exec_of_clear hc hh).trans (congrArg _ (decblkEffect_eq s adv)),
    Memory.read_write_region _ _ (length_decBlock (Memory.length_bytes _ _ _) _ _)⟩

/-- Settles O17: the effect of ENCBLK is one store of 80 bytes, after its 16 draws. -/
theorem encblkEncryptsOneBlock : Obligations.EncblkEncryptsOneBlock := fun adv s hc hh =>
  ⟨_, (exec_of_clear hc hh).trans (congrArg _ (encblkEffect_eq s adv)),
    Memory.read_write_region _ _ (by rw [length_encBlock, Memory.length_bytes, length_draws]; rfl)⟩

/-! ### The mirror -/

theorem inMirrorPair_iff (n p : Nat) : inMirrorPair n p = true ↔
    (p % 4 = 0 ∧ p < n / 2) ∨ ((n - 1 - p) % 4 = 0 ∧ n - 1 - p < n / 2) := by
  simp [inMirrorPair]

/-- The ten pairs that the spec lists for a block (R107). -/
theorem inMirrorPair_block_iff : ∀ p < 80, inMirrorPair 80 p = true ↔
    p ∈ [0, 4, 8, 12, 16, 20, 24, 28, 32, 36] ∨ p ∈ [79, 75, 71, 67, 63, 59, 55, 51, 47, 43] := by
  decide

/-- Settles O29: both closed forms are that of the swap loop, with its condition written out. -/
theorem mirrorSwapsTheListedPairs : Obligations.MirrorSwapsTheListedPairs := by
  refine ⟨fun X => ⟨length_mirror4 X, fun p hp => ?general⟩, fun X hX p hp => ?block, mirror4_mirror4⟩
  case general => rw [byteAt_mirror4 hp, if_congr (inMirrorPair_iff _ _) rfl rfl]
  case block => rw [byteAt_mirror4 (by omega), hX, if_congr (inMirrorPair_block_iff p hp) rfl rfl]

/-! ### The value of a sequence -/

theorem valueBE_eq_ofDigits (X : Bytes) : valueBE X = Nat.ofDigits 256 (X.map BitVec.toNat).reverse := by
  rw [valueBE, Nat.ofDigits_eq_foldr, List.foldr_reverse, List.foldl_map]
  simp only [Nat.add_comm, Nat.cast_id]

theorem valueBE_append (X Y : Bytes) : valueBE (X ++ Y) = valueBE X * 256 ^ Y.length + valueBE Y := by
  simp only [valueBE_eq_ofDigits, List.map_append, List.reverse_append, Nat.ofDigits_append, List.length_reverse, List.length_map]
  ring

theorem valueBE_singleton (b : Byte) : valueBE [b] = b.toNat := by
  simp [valueBE]

theorem valueBE_lt (X : Bytes) : valueBE X < 256 ^ X.length := by
  rw [valueBE_eq_ofDigits]
  have hdigits : ∀ d ∈ (X.map BitVec.toNat).reverse, d < 256 := by
    intro d hd
    obtain ⟨b, -, rfl⟩ := List.mem_map.mp (List.mem_reverse.mp hd)
    exact b.isLt
  simpa using Nat.ofDigits_lt_base_pow_length (by decide) hdigits

theorem valueBE_cons (b : Byte) (X : Bytes) : valueBE (b :: X) = 256 ^ X.length * b.toNat + valueBE X := by
  rw [← List.singleton_append, valueBE_append, valueBE_singleton, Nat.mul_comm]

theorem valueBE_concat (X : Bytes) (b : Byte) : valueBE (X ++ [b]) = valueBE X * 256 + b.toNat := by
  rw [valueBE_append, valueBE_singleton, List.length_singleton, pow_one]

/-- The low bits of the value are those of the last byte. -/
theorem valueBE_mod_eight (X : Bytes) : valueBE X % 8 = (byteAt X (X.length - 1)).toNat % 8 := by
  induction X using List.reverseRecOn with
  | nil => rfl
  | append_singleton X b =>
    have hlast : byteAt (X ++ [b]) ((X ++ [b]).length - 1) = b := by simp [byteAt]
    rw [hlast, valueBE_concat]
    omega

/-- Masking the top bits of the first byte reduces the value. -/
theorem valueBE_set_zero {X : Bytes} (hX : 1 ≤ X.length) :
    valueBE (X.set 0 (byteAt X 0 &&& 0x1F#8)) = valueBE X % (256 ^ (X.length - 1) * 32) := by
  obtain ⟨b, X, rfl⟩ := List.exists_cons_of_length_pos hX
  have hmask : (b &&& 0x1F#8).toNat = b.toNat % 32 := Nat.and_two_pow_sub_one_eq_mod b.toNat 5
  have hpos : 0 < 256 ^ X.length := Nat.pow_pos (by decide)
  calc valueBE ((b &&& 0x1F#8) :: X)
    _ = valueBE X + 256 ^ X.length * (b.toNat % 32) := by rw [valueBE_cons, hmask, Nat.add_comm]
    _ = valueBE (b :: X) % (256 ^ X.length * 32) := by
      rw [Nat.mod_mul, valueBE_cons, Nat.mul_add_mod, Nat.mul_add_div hpos, Nat.mod_eq_of_lt (valueBE_lt X),
        Nat.div_eq_of_lt (valueBE_lt X), Nat.add_zero]

/-! ### The right shift -/

/-- A last byte takes the low bits of the byte before it; before a first byte there are none (R106). -/
theorem shr3_concat (X : Bytes) (b : Byte) :
    shr3 (X ++ [b]) = shr3 X ++ [(b >>> 3) ||| (byteAt X (X.length - 1) <<< 5)] := by
  refine bytes_ext (by simp) fun i hi => ?_
  simp only [length_shr3, List.length_append, List.length_singleton] at hi
  rw [byteAt_shr3 (by simpa using hi), byteAt_append (shr3 X), length_shr3]
  simp only [byteAt_append X]
  rcases Nat.lt_succ_iff_lt_or_eq.mp hi with hi | rfl
  · rw [byteAt_shr3 hi]
    simp (disch := omega) only [if_pos]
  · cases X <;> simp [byteAt]

theorem toNat_shifted_byte (b c : Byte) : ((b >>> 3) ||| (c <<< 5)).toNat = c.toNat % 8 * 32 + b.toNat / 8 := by
  have hlow : b.toNat / 8 < 2 ^ 5 := by omega
  have hhigh : (c <<< 5).toNat = 2 ^ 5 * (c.toNat % 8) := by
    rw [BitVec.toNat_shiftLeft, Nat.shiftLeft_eq]
    omega
  rw [BitVec.or_comm, BitVec.toNat_or, hhigh, BitVec.toNat_ushiftRight, Nat.shiftRight_eq_div_pow,
    ← Nat.two_pow_add_eq_or_of_lt hlow, Nat.mul_comm]

theorem valueBE_shr3 (X : Bytes) : valueBE (shr3 X) = valueBE X / 8 := by
  induction X using List.reverseRecOn with
  | nil => rfl
  | append_singleton X b ih =>
    rw [shr3_concat, valueBE_concat, valueBE_concat, ih, toNat_shifted_byte, ← valueBE_mod_eight]
    omega

/-- Settles O30: shifting right is dividing by 8. -/
theorem rightShiftIsOneBitStream : Obligations.RightShiftIsOneBitStream := fun X _ =>
  ⟨length_shr3 X, (valueBE_shr3 X).trans (Nat.shiftRight_eq_div_pow _ 3).symm⟩

/-! ### The left shift -/

theorem shiftLeft_byteAt_shr3 {X : Bytes} {i : Nat} (h : i < X.length) : byteAt (shr3 X) i <<< 3 = byteAt X i &&& 0xF8#8 := by
  rw [byteAt_shr3 h]
  split_ifs with hi
  · subst hi
    ext k hk
    interval_cases k <;> simp
  · ext k hk
    interval_cases k <;> simp

theorem shiftRight_byteAt_shr3_succ {X : Bytes} {i : Nat} (h : i + 1 < X.length) :
    byteAt (shr3 X) (i + 1) >>> 5 = byteAt X i &&& 0x07#8 := by
  rw [byteAt_shr3 h, if_neg i.succ_ne_zero, Nat.add_sub_cancel]
  ext k hk
  interval_cases k <;> simp

/-- The left shift undoes the right shift, but for the three bits that went out at the bottom (R108). -/
theorem shl3_shr3 (X : Bytes) : shl3 (shr3 X) = X.set (X.length - 1) (byteAt X (X.length - 1) &&& 0xF8#8) := by
  refine bytes_ext (by simp) fun i hi => ?_
  simp only [length_shl3, length_shr3] at hi
  rw [byteAt_shl3 (by simpa using hi), length_shr3, shiftLeft_byteAt_shr3 hi, byteAt_set (by omega)]
  by_cases hlast : i + 1 < X.length
  · rw [if_pos hlast, if_neg (by omega), shiftRight_byteAt_shr3_succ hlast, ← BitVec.and_or_distrib_left]
    exact BitVec.and_allOnes
  · obtain rfl : i = X.length - 1 := by omega
    rw [if_neg hlast, if_pos rfl]

/-- The three low bits of a left shift are zero (R108). -/
theorem byteAt_shl3_last_and {X : Bytes} (hX : 1 ≤ X.length) : byteAt (shl3 X) (X.length - 1) &&& 0x07#8 = 0#8 := by
  rw [byteAt_shl3 (by omega), if_neg (by omega)]
  ext k hk
  interval_cases k <;> simp

theorem valueBE_shl3 {X : Bytes} (hX : 1 ≤ X.length) : valueBE (shl3 X) = valueBE X * 8 % 256 ^ X.length := by
  have hlow : valueBE (shl3 X) % 8 = 0 := by
    rw [valueBE_mod_eight, length_shl3, ← Nat.and_two_pow_sub_one_eq_mod _ 3]
    exact congrArg BitVec.toNat (byteAt_shl3_last_and hX)
  have hhigh : valueBE (shl3 X) / 8 = valueBE X % (256 ^ (X.length - 1) * 32) := by
    rw [← valueBE_shr3, shr3_shl3, valueBE_set_zero hX]
  have hpow : 256 ^ X.length = 256 ^ (X.length - 1) * 32 * 8 := by
    rw [Nat.mul_assoc, ← pow_succ, Nat.sub_add_cancel hX]
  calc valueBE (shl3 X)
    _ = valueBE (shl3 X) / 8 * 8 := by omega
    _ = valueBE X * 8 % 256 ^ X.length := by rw [hhigh, hpow, Nat.mul_mod_mul_right]

/-- Settles O31: the value of a left shift is eight times that of what shifting back leaves of the sequence. -/
theorem leftShiftIsOneBitStream : Obligations.LeftShiftIsOneBitStream := fun X hX =>
  ⟨length_shl3 X, (valueBE_shl3 hX).trans (by rw [Nat.shiftLeft_eq]), shr3_shl3 X, shl3_shr3 X⟩

/-! ### The block -/

theorem byteAt_xorRot_xor {X : Bytes} {i : Nat} (h : i < X.length) (T : Vector Byte 256) (idx : Byte) :
    byteAt (xorRot X T idx) i ^^^ tabAt T (idx + BitVec.ofNat 8 i) = byteAt X i := by
  rw [byteAt_xorRot h, BitVec.xor_assoc, BitVec.xor_self, BitVec.xor_zero]

theorem xorRot_xorRot (X : Bytes) (T : Vector Byte 256) (idx : Byte) : xorRot (xorRot X T idx) T idx = X := by
  refine bytes_ext (by simp) fun i hi => ?_
  simp only [length_xorRot] at hi
  rw [byteAt_xorRot (by simpa using hi), byteAt_xorRot_xor hi]

/-- The decrypt stream of an encrypted block is what was encrypted, but for bits 7:5 of its last byte (R111). -/
theorem decStream_encBlock (P R : Bytes) (T : Vector Byte 256) (idx : Byte) : decStream (encBlock P R T idx) T idx =
    (P ++ R).set ((P ++ R).length - 1) (byteAt (P ++ R) ((P ++ R).length - 1) &&& 0x1F#8) := by
  rw [decStream, encBlock, xorRot_xorRot, shr3_shl3, mirror4_set_zero, mirror4_mirror4, length_mirror4, byteAt_mirror4_zero]

theorem decStream_encBlock_block {P R : Bytes} (hP : P.length = 64) (hR : R.length = 16) (T : Vector Byte 256) (idx : Byte) :
    decStream (encBlock P R T idx) T idx = P ++ R.take 15 ++ [byteAt R 15 &&& 0x1F#8] := by
  have hlast : byteAt (P ++ R) 79 = byteAt R 15 := by rw [byteAt_append, hP]; rfl
  rw [decStream_encBlock, List.length_append, hP, hR, hlast, List.set_append_right _ _ (by omega), hP, List.append_assoc,
    List.set_eq_take_append_cons_drop, if_pos (by omega), List.drop_of_length_le (by omega)]

theorem decBlock_encBlock {P R : Bytes} (hP : P.length = 64) (hR : R.length = 16) (T : Vector Byte 256) (idx : Byte) :
    decBlock (encBlock P R T idx) T idx = P := by
  rw [decBlock, decStream_encBlock_block hP hR, List.append_assoc, Config.pblk, List.take_left' hP]

/-- Settles O32: the padding takes all that the shifts lose. -/
theorem blockTransformRoundTrips : Obligations.BlockTransformRoundTrips := fun _ _ T idx hP hR =>
  ⟨decBlock_encBlock hP hR T idx, decStream_encBlock_block hP hR T idx⟩

/-- Settles O33: the table is XORed on last and off first, and between them the last byte is a left shift. -/
theorem encryptedBlocksEndInZeroBits : Obligations.EncryptedBlocksEndInZeroBits := by
  intro T idx
  refine ⟨fun P R hP hR => ?encrypt, fun C X hC hX hbytes => ?decrypt⟩
  case encrypt =>
    have hlen : (mirror4 (P ++ R)).length = 80 := by simp [hP, hR]
    have hunder (i : Nat) (hi : i < 80) :
        byteAt (encBlock P R T idx) i ^^^ tabAt T (idx + BitVec.ofNat 8 i) = byteAt (shl3 (mirror4 (P ++ R))) i :=
      byteAt_xorRot_xor (by rw [length_shl3, hlen]; exact hi) T idx
    have hzero := byteAt_shl3_last_and (X := mirror4 (P ++ R)) (by omega)
    rw [hlen, ← hunder 79 (by decide)] at hzero
    exact ⟨hunder, hzero⟩
  case decrypt =>
    have hunder : X = xorRot C T idx := by
      refine bytes_ext (by simp [hC, hX]) fun i hi => ?_
      rw [byteAt_xorRot (by omega), hbytes i (by omega)]
    rw [hunder]
    rfl

/-! ### The image -/

/-- A sequence is the concatenation of its slices. -/
theorem flatMap_slice {X : Bytes} {l n : Nat} (hX : X.length = l * n) :
    (List.range n).flatMap (fun k => slice X (l * k) l) = X := by
  have hpart : ∀ k < n, (slice X (l * k) l).length = l := fun k hk =>
    length_slice (by rw [hX, ← Nat.mul_succ]; exact Nat.mul_le_mul_left l hk)
  have hlen := length_flatMap_range hpart
  refine bytes_ext (hlen.trans hX.symm) fun i hi => ?_
  rw [hlen] at hi
  have hl : 0 < l := Nat.pos_of_mul_pos_right (Nat.zero_lt_of_lt hi)
  have hj : i % l < l := Nat.mod_lt i hl
  rw [← Nat.div_add_mod i l, byteAt_flatMap_range hpart (Nat.div_lt_of_lt_mul hi) hj, byteAt_slice, if_pos hj]

/-- A slice of a concatenation is one of its parts. -/
theorem slice_flatMap_range {n l : Nat} {f : Nat → Bytes} (h : ∀ k < n, (f k).length = l) {k : Nat} (hk : k < n) :
    slice ((List.range n).flatMap f) (l * k) l = f k := by
  have hlen : (slice ((List.range n).flatMap f) (l * k) l).length = l :=
    length_slice (by rw [length_flatMap_range h, ← Nat.mul_succ]; exact Nat.mul_le_mul_left l hk)
  refine bytes_ext (hlen.trans (h k hk).symm) fun j hj => ?_
  rw [hlen] at hj
  rw [byteAt_slice, if_pos hj, byteAt_flatMap_range h hk hj]

/-- Settles O35: block `n` of the encrypted image is block `n` encrypted, under the index it is decrypted with. -/
theorem imageRoundTripsUnderOneTable : Obligations.ImageRoundTripsUnderOneTable := by
  intro P R T init hP hR
  have hplain : ∀ n < 1936, (slice P (64 * n) 64).length = 64 := fun n hn => length_slice (by omega)
  have hpad : ∀ n < 1936, (slice R (16 * n) 16).length = 16 := fun n hn => length_slice (by omega)
  have hblock : ∀ n < 1936, slice (encImage P R T init) (80 * n) 80 =
      encBlock (slice P (64 * n) 64) (slice R (16 * n) 16) T (blockIdx init n) := fun n hn =>
    slice_flatMap_range (fun k hk => by rw [length_encBlock, Config.pblk, hplain k hk, Config.pad, hpad k hk]) hn
  calc decImage (encImage P R T init) T init
    _ = (List.range 1936).flatMap fun n => slice P (64 * n) 64 := by
      refine List.flatMap_congr fun n hn => ?_
      have hn := List.mem_range.mp hn
      rw [Config.cblk, hblock n hn, decBlock_encBlock (hplain n hn) (hpad n hn)]
    _ = P := flatMap_slice hP

end Sys2Proof.Machine
end

section
/-! Proofs of the statements on the XOR table (43_xor_table.md) and on the firmware codec (44_firmware_codec.md): the table that a command
loads, what DECIMG, ENCIMG and cross-keying GETENC store, block by block, and the window bytes of a block that is encrypted again. -/

namespace Sys2Proof.Machine

/-! ### The table -/

/-- Settles O15: the effect of LDTAB is the extracted table. -/
theorem ldtabLoadsTheComplementedWindows : Obligations.LdtabLoadsTheComplementedWindows := fun s hc hh =>
  ⟨_, (exec_of_clear hc hh).trans (congrArg _ (ldtabEffect_eq s)), fun _ hk _ hj => tabAt_extractTable s.mem _ hk hj⟩

/-! ### The blocks of an image -/

/-- Byte `j` of block `n` of a decrypted image (R120). -/
theorem byteAt_decrypted (s : State) (b : Nat) {n j : Nat} (hn : n < 1936) (hj : j < 64) :
    byteAt (decrypted s b) (64 * n + j) =
      byteAt (decBlock (Memory.bytes s.mem (b + 80 * n) 80) (extractTable s.mem b) (s.params.decInit + BitVec.ofNat 8 (4 * n))) j := by
  rw [← Memory.slice_bytes (n := Config.encSize) (by rw [Config.encSize]; omega), decrypted, decImage]
  refine byteAt_flatMap_range (fun k (hk : k < 1936) => length_decBlock (length_slice ?_) _ _) hn hj
  rw [Memory.length_bytes, Config.encSize, Config.cblk]
  omega

/-- Byte `j` of block `n` of an encrypted image: draws `16 n .. 16 n + 15` are its padding (R121). -/
theorem byteAt_encrypted (s : State) (p b : Nat) {n j : Nat} (hn : n < 1936) (hj : j < 80) :
    byteAt (encrypted s p b) (80 * n + j) =
      byteAt (encBlock (Memory.bytes s.mem (p + 64 * n) 64) (slice (draws 30976 s) (16 * n) 16) (extractTable s.mem b)
        (s.params.encInit + BitVec.ofNat 8 (4 * n))) j := by
  rw [← Memory.slice_bytes (n := Config.plainSize) (by rw [Config.plainSize]; omega), encrypted, encImage]
  refine byteAt_flatMap_range (fun k (hk : k < 1936) => ?_) hn hj
  rw [length_encBlock, length_slice (by rw [Memory.length_bytes, Config.plainSize, Config.pblk]; omega),
    length_slice (by rw [length_draws, imageDraws, Config.nblk, Config.pad]; omega), Config.pblk, Config.pad]

/-- What `decryptTo` leaves in memory: the decrypted blocks from its destination on, every other byte as before (R122). -/
theorem read_decryptTo (b d : Nat) (s : State) :
    (∀ n < 1936, ∀ j < 64, Memory.read (decryptTo b d s).mem (d + 64 * n + j) =
      byteAt (decBlock (Memory.bytes s.mem (b + 80 * n) 80) (extractTable s.mem b) (s.params.decInit + BitVec.ofNat 8 (4 * n))) j) ∧
    ∀ a, (a < d ∨ d + 0x1E400 ≤ a) → Memory.read (decryptTo b d s).mem a = Memory.read s.mem a := by
  obtain ⟨hin, hout⟩ := Memory.read_write_region s.mem d (length_decrypted s b)
  refine ⟨fun n hn j hj => ?_, hout⟩
  rw [decryptTo_eq, Nat.add_assoc, hin _ (by rw [Config.plainSize]; omega), byteAt_decrypted s b hn hj]

/-- What `encryptTo` leaves in memory: the encrypted blocks from its destination on, every other byte as before (R123). -/
theorem read_encryptTo (p b d : Nat) (s : State) :
    (∀ n < 1936, ∀ j < 80, Memory.read (encryptTo p b d s).mem (d + 80 * n + j) =
      byteAt (encBlock (Memory.bytes s.mem (p + 64 * n) 64) (slice (draws 30976 s) (16 * n) 16) (extractTable s.mem b)
        (s.params.encInit + BitVec.ofNat 8 (4 * n))) j) ∧
    ∀ a, (a < d ∨ d + 0x25D00 ≤ a) → Memory.read (encryptTo p b d s).mem a = Memory.read s.mem a := by
  obtain ⟨hin, hout⟩ := Memory.read_write_region s.mem d (length_encrypted s p b)
  refine ⟨fun n hn j hj => ?_, hout⟩
  rw [encryptTo_eq, Nat.add_assoc, hin _ (by rw [Config.encSize]; omega), byteAt_encrypted s p b hn hj]

/-! ### DECIMG and ENCIMG -/

/-- Settles O18: the effect of DECIMG is the image's own table and one store of the decrypted blocks. -/
theorem decimgDecryptsEveryBlock : Obligations.DecimgDecryptsEveryBlock := fun s hc hh =>
  ⟨_, _, (exec_of_clear hc hh).trans (congrArg _ (decimgEffect_eq s)), fun _ hk _ hj => tabAt_extractTable s.mem _ hk hj,
    read_decryptTo s.src.toNat s.dst.toNat s⟩

/-- Settles O19: the effect of ENCIMG is the key image's table and one store of the encrypted blocks, after their draws. -/
theorem encimgEncryptsEveryBlock : Obligations.EncimgEncryptsEveryBlock := by
  intro key s hc hh
  refine ⟨_, _, (exec_of_clear hc hh).trans (congrArg _ (encimgEffect_eq s key)), fun k hk j hj => ?_,
    read_encryptTo s.src.toNat (imgSel key s) s.dst.toNat s⟩
  rw [tabAt_extractTable s.mem _ hk hj, imgSel_eq]

/-! ### Cross-keying GETENC -/

section CrossKey

variable {v k : Variant} {s : State}

/-- The scratch and the output of a cross-keying GETENC share no address (20_memory.md R62). -/
theorem scratch_apart_from_output (hne : v ≠ k) (hc : Clear (.getenc v k) s) :
    s.scr.toNat + 0x1E400 ≤ s.dst.toNat ∨ s.dst.toNat + 0x25D00 ≤ s.scr.toNat := by
  have hscratch := hc.separate.scratch v k rfl hne (max s.scr.toNat s.dst.toNat)
  simp only [Config.plainSize, Config.encSize] at hscratch
  omega

/-- The scratch of a cross-keying GETENC holds no byte of the key image's table windows (R62). -/
theorem windows_apart_from_scratch (hne : v ≠ k) (hc : Clear (.getenc v k) s) {n j : Nat} (hn : n < 16) (hj : j < 16) :
    imgSel k s + 0x1EEDF + 320 * n + j < s.scr.toNat ∨ s.scr.toNat + 0x1E400 ≤ imgSel k s + 0x1EEDF + 320 * n + j := by
  obtain ⟨r, hr, hwindow⟩ := (inTableWindows_iff (imgSel k s) _).mpr ⟨n, hn, j, hj, rfl⟩
  have hread : Reads (.getenc v k) s (imgSel k s + 0x1EEDF + 320 * n + j) :=
    ⟨r, by rw [footprint_getenc_cross hne]; exact List.mem_cons_of_mem _ hr, hwindow⟩
  by_contra hin
  refine hc.separate.apart _ ⟨⟨s.scr.toNat, Config.plainSize⟩, ?_, ?_⟩ hread
  · rw [footprint_getenc_cross hne]
    exact List.mem_cons_self
  · rw [inRegion_mk, Config.plainSize]
    omega

end CrossKey

/-- Settles O21: two stores, and neither changes what the other is made of. The decrypted image leaves the key image's windows alone,
and the encrypted one leaves the plaintext in the scratch. -/
theorem getencCrossKeysThroughTheScratch : Obligations.GetencCrossKeysThroughTheScratch := by
  intro v k s hne hc hh
  have hapart := scratch_apart_from_output hne hc
  obtain ⟨hplain, houtside⟩ := read_decryptTo (imgSel v s) s.scr.toNat s
  obtain ⟨hcipher, hkept⟩ := read_encryptTo s.scr.toNat (imgSel k s) s.dst.toNat (decryptTo (imgSel v s) s.scr.toNat s)
  refine ⟨_, extractTable s.mem (imgSel v s), _, (exec_of_clear hc hh).trans (congrArg _ (getencEffect_cross s hne)),
    fun n hn j hj => ⟨tabAt_extractTable s.mem _ hn hj, ?table⟩, fun n hn j hj => ?scratch, fun n hn j hj => ?output,
    fun a hscr hdst => (hkept a hdst).trans (houtside a hscr)⟩
  case table =>
    rw [tabAt_extractTable _ _ hn hj]
    exact congrArg _ (houtside _ (windows_apart_from_scratch hne hc hn hj))
  case scratch => exact (hkept _ (by omega)).trans (hplain n hn j hj)
  case output =>
    rw [Memory.bytes_write_apart (by rw [length_encrypted, Config.encSize]; omega)]
    exact hcipher n hn j hj

/-! ### A block encrypted again -/

/-- A byte of the mirrored sequence is known from its pair (R107). -/
theorem byteAt_mirror4_congr {X Y : Bytes} (hlen : X.length = Y.length) {p : Nat} (hp : p < X.length)
    (hsame : byteAt X p = byteAt Y p) (hpair : byteAt X (X.length - 1 - p) = byteAt Y (X.length - 1 - p)) :
    byteAt (mirror4 X) p = byteAt (mirror4 Y) p := by
  rw [byteAt_mirror4 hp, byteAt_mirror4 (hlen ▸ hp), ← hlen, hsame, hpair]

/-- The left shift undoes the right shift at every byte but the last (R108). -/
theorem byteAt_shl3_shr3 {X : Bytes} {i : Nat} (hi : i + 1 < X.length) : byteAt (shl3 (shr3 X)) i = byteAt X i := by
  rw [shl3_shr3, byteAt_set (by omega), if_neg (by omega)]

/-- Up to the padding, what is encrypted again is the decrypt stream: bytes 16..63 of the mirrored block do not depend on the padding
(R111). -/
theorem byteAt_mirror4_decBlock_append {C R : Bytes} (hC : C.length = 80) (hR : R.length = 16) (T : Vector Byte 256) (idx : Byte)
    {p : Nat} (hlo : 16 ≤ p) (hhi : p ≤ 63) :
    byteAt (mirror4 (decBlock C T idx ++ R)) p = byteAt (shr3 (xorRot C T idx)) p := by
  have hblock := length_decBlock hC T idx
  have hlen : (decBlock C T idx ++ R).length = 80 := by rw [List.length_append, hblock, hR]
  have hstream (q : Nat) (hq : q < 64) : byteAt (decBlock C T idx ++ R) q = byteAt (decStream C T idx) q := by
    rw [byteAt_append, if_pos (by omega), decBlock, byteAt_take, Config.pblk, if_pos hq]
  rw [byteAt_mirror4_congr (Y := decStream C T idx) (by rw [hlen, length_decStream, hC]) (by omega) (hstream p (by omega))
    (by rw [hlen]; exact hstream _ (by omega)), decStream, mirror4_mirror4]

/-- Settles O34: bytes 47..63 of the mirrored block are those before decryption, and a shifted byte takes no more than its neighbour. -/
theorem reencryptionKeepsTheWindowBytes : Obligations.ReencryptionKeepsTheWindowBytes := by
  intro C R T idx hC hR j hlo hhi
  have hlen : (mirror4 (decBlock C T idx ++ R)).length = 80 := by
    rw [length_mirror4, List.length_append, length_decBlock hC, hR]
  have hshift : byteAt (shl3 (mirror4 (decBlock C T idx ++ R))) j = byteAt (xorRot C T idx) j := by
    rw [← byteAt_shl3_shr3 (X := xorRot C T idx) (by rw [length_xorRot]; omega), byteAt_shl3_eq (by omega),
      byteAt_shl3_eq (by rw [length_shr3, length_xorRot]; omega), byteAt_mirror4_decBlock_append hC hR T idx (by omega) (by omega),
      byteAt_mirror4_decBlock_append hC hR T idx (by omega) (by omega)]
  rw [encBlock, byteAt_xorRot (by rw [length_shl3]; omega), hshift, byteAt_xorRot_xor (by omega)]

end Sys2Proof.Machine
end

section
/-! Proof of the identity case of GETENC (44_firmware_codec.md R125): the stored image is copied. -/

namespace Sys2Proof.Machine

/-- What a copy of `n` bytes leaves in memory: the bytes of the source from the destination on, every other byte as before. All of the
source is read before the store, so this asks nothing of where the two regions lie. -/
theorem read_copy (m : Memory) (a b n : Nat) :
    (∀ j < n, Memory.read (Memory.write m a (Memory.bytes m b n)) (a + j) = Memory.read m (b + j)) ∧
    ∀ c, (c < a ∨ a + n ≤ c) → Memory.read (Memory.write m a (Memory.bytes m b n)) c = Memory.read m c := by
  obtain ⟨hin, hout⟩ := Memory.read_write_region m a (Memory.length_bytes m b n)
  exact ⟨fun j hj => (hin j hj).trans (Memory.byteAt_bytes hj), hout⟩

/-- Settles O20: under one variant the effect of GETENC is one store, of the bytes of the selected image. -/
theorem getencCopiesTheStoredImage : Obligations.GetencCopiesTheStoredImage := by
  intro v s hc hh
  obtain ⟨hcopied, hkept⟩ := read_copy s.mem s.dst.toNat (imgSel v s) Config.encSize
  refine ⟨_, (exec_of_clear hc hh).trans (congrArg _ (getencEffect_same s v)), fun j hj => ?_, hkept⟩
  rw [hcopied j hj, imgSel_eq]

end Sys2Proof.Machine
end

section
/-! Proofs of the statements on the serial record codec (45_serial_record.md): what SERDEC stores, the two ways of SERENC's first step, the
record byte by byte under its key, and the bound on SERENC's loop. -/

namespace Sys2Proof.Machine

/-! ### The record under its key -/

theorem byteAt_xorSeq {X : Bytes} {i : Nat} (h : i < X.length) (K : Bytes) :
    byteAt (xorSeq X K) i = byteAt X i ^^^ byteAt K i := by
  rw [xorSeq, byteAt_seqOf, if_pos h]

/-- Settles O36: the key is XORed on last and off first, and of the record the shifts lose bits 7:5 of its last byte alone. -/
theorem serialRecordRoundTrips : Obligations.SerialRecordRoundTrips := by
  intro B K hB _
  refine ⟨fun i hi => ?encrypt, fun X hX hbytes => ?decrypt, ?roundTrip⟩
  case encrypt =>
    rw [serEncrypt, byteAt_xorSeq (by rw [length_shl3, length_mirror4]; omega), BitVec.xor_assoc, BitVec.xor_self, BitVec.xor_zero]
  case decrypt =>
    have hunder : X = xorSeq B K := by
      refine bytes_ext (by rw [length_xorSeq, hX, hB]) fun i hi => ?_
      rw [byteAt_xorSeq (by omega), hbytes i (by omega)]
    rw [hunder, serDecrypt]
  case roundTrip =>
    rw [serDecrypt_serEncrypt, hB, List.set_eq_take_append_cons_drop, if_pos (by omega), List.drop_of_length_le (by omega)]

/-! ### The first steps -/

/-- Settles O22: the effect of SERDEC is one store of 80 bytes, and its key bytes lie in a row. -/
theorem serdecDecryptsTheRecord : Obligations.SerdecDecryptsTheRecord := by
  intro s hc hh
  rw [← serKey_eq]
  exact ⟨_, (exec_of_clear hc hh).trans (congrArg _ (serdecEffect_eq s)),
    Memory.read_write_region _ _ (by rw [length_serDecrypt, Memory.length_bytes]; rfl)⟩

/-- Settles O23: SERENC's effect, by whether the record at SRC has CRC-16 zero. -/
theorem serencSkipsOrEntersTheLoop : Obligations.SerencSkipsOrEntersTheLoop := by
  intro s hc hh B K
  have hkey : serKey s.mem s.params s.img.toNat = K := serKey_eq s.mem s.params s.img.toNat
  have hskips : skips s = true ↔ crc16 s.params.crc16Poly s.params.crc16Init B = 0#16 := skips_iff s
  rw [exec_of_clear hc hh, effectOf]
  refine ⟨fun hzero => ?skip, fun hnonzero => ?loop⟩
  case skip =>
    rw [serencEffect_skip s (hskips.mpr hzero), hkey]
    exact ⟨_, congrArg _ (storeRecord_eq s B K 0#32),
      Memory.read_write_region _ _ (by rw [length_serEncrypt, Memory.length_bytes])⟩
  case loop =>
    rw [serencEffect_loop s (mt hskips.mp hnonzero), hkey]
    exact ⟨_, rfl, toList_record (Memory.length_bytes _ _ _), toList_record (Memory.length_bytes _ _ _), rfl, rfl⟩

/-! ### Runs that end -/

/-- Within `n` steps the engine is idle with DONE = 1 (70_reset_and_hazards.md R171). -/
def EndsWithin (n : Nat) (s : State) : Prop :=
  ∃ k ≤ n, ∃ t, Host.Core.run Sys2Proof.core k s = .next t ∧ t.phase = .idle ∧ t.done = true

variable {s t : State} {n : Nat}

theorem endsWithin_of_completed (h : Completed s t) : EndsWithin n t :=
  ⟨0, n.zero_le, t, rfl, h.phase, h.done⟩

theorem endsWithin_of_step (h : step s = .next t) (ht : EndsWithin n t) : EndsWithin (n + 1) s := by
  obtain ⟨k, hk, u, hrun, hu⟩ := ht
  refine ⟨k + 1, Nat.succ_le_succ hk, u, ?_, hu⟩
  have hstep : Sys2Proof.core.step s = .next t := h
  simp only [Host.Core.run, hstep]
  exact hrun

/-! ### SERENC within its budget -/

/-- Below the budget the count of attempts does not saturate (45_serial_record.md R135). -/
theorem toNat_satIncr {m max : Word} (h : m.toNat < max.toNat) : (satIncr m).toNat = m.toNat + 1 := by
  have hlt : m.toNat + 1 < 2 ^ 32 := Nat.lt_of_le_of_lt h max.isLt
  have hne : m ≠ 0xFFFFFFFF#32 := fun hm => by simp [hm] at hlt
  rw [satIncr, if_neg hne]
  exact BitVec.toNat_add_of_lt hlt

/-- SERENC is in its loop, nobody but the engine moves, the platform keeps its promise, and at most `n` attempts of the budget are left. -/
structure AttemptsLeft (n : Nat) (w : SerWork) (s : State) : Prop where
  alone : s.agenda = []
  loop : s.phase = .serloop w
  promise : s.params.refusing = []
  unspent : w.n.toNat < s.serRetryMax.toNat
  left : s.serRetryMax.toNat ≤ w.n.toNat + n

/-- An attempt completes the command, or leaves one attempt less (45_serial_record.md R135). -/
theorem AttemptsLeft.attempt {w : SerWork} (h : AttemptsLeft (n + 1) w s) :
    ∃ t, step s = .next t ∧ (Completed s t ∨ ∃ v, AttemptsLeft n v t) := by
  obtain ⟨t, ht⟩ := step_total s
  refine ⟨t, ht, ?_⟩
  obtain ⟨halone, hloop, hpromise, hunspent, hleft⟩ := h
  obtain ⟨-, -, rfl⟩ | ⟨-, hstuck, -⟩ | ⟨-, -, rfl⟩ | ⟨-, hbudget, rfl⟩ :=
    attemptSerenc_next ((step_serloop (.inl halone) hloop).symm.trans ht)
  case inl => exact .inl ⟨rfl, rfl, rfl⟩
  case inr.inl => simp [refuses, hpromise] at hstuck
  case inr.inr.inl => exact .inl ⟨rfl, rfl, rfl⟩
  case inr.inr.inr =>
    have hcount := toNat_satIncr hunspent
    have hmax : s.serRetryMax ≠ 0#32 := fun h0 => by simp [h0] at hunspent
    refine .inr ⟨_, congrArg List.tail halone, rfl, hpromise, lt_of_not_budgetSpent hbudget hmax, ?_⟩
    calc s.serRetryMax.toNat
      _ ≤ (w.n.toNat + 1) + n := by omega
      _ = (satIncr w.n).toNat + n := by rw [hcount]

theorem AttemptsLeft.endsWithin {w : SerWork} (h : AttemptsLeft n w s) : EndsWithin n s := by
  induction n generalizing w s with
  | zero => exact absurd h.left (Nat.not_le_of_lt h.unspent)
  | succ n ih =>
    obtain ⟨t, hstep, hcompleted | ⟨v, hv⟩⟩ := h.attempt
    · exact endsWithin_of_step hstep (endsWithin_of_completed hcompleted)
    · exact endsWithin_of_step hstep (ih hv)

/-- Settles O38: the first step completes the command or enters the loop with all of the budget left. -/
theorem serencEndsWithinItsBudget : Obligations.SerencEndsWithinItsBudget := by
  intro s halone hp hd hmax hpromise
  obtain ⟨t, ht⟩ := step_total s
  refine endsWithin_of_step ht ?_
  obtain ⟨e, -, rfl⟩ | ⟨-, -, rfl⟩ | ⟨-, hstuck, -⟩ := exec_next ((step_pending (.inl halone) hp hd).symm.trans ht)
  case inl => exact endsWithin_of_completed (completed_complete e (popTurn s))
  case inr.inl =>
    by_cases hskip : skips (popTurn s) = true
    · rw [effectOf, serencEffect_skip _ hskip]
      exact endsWithin_of_completed (s := s) ⟨rfl, rfl, rfl⟩
    · rw [effectOf, serencEffect_loop _ hskip]
      have hpos : 0 < s.serRetryMax.toNat := Nat.pos_of_ne_zero fun h0 => hmax (BitVec.eq_of_toNat_eq h0)
      exact AttemptsLeft.endsWithin ⟨congrArg List.tail halone, rfl, hpromise, hpos, Nat.le_add_left _ _⟩
  case inr.inr => exact absurd (honest_of_refusing_nil (s := popTurn s) hpromise) hstuck

end Sys2Proof.Machine
end

section
/-! Proofs of the statements on exceptions (60_exceptions.md): the codes a command completes with, what raises `irq`, and that the state
right after reset meets the invariant. -/

namespace Sys2Proof.Machine

variable {s t u : State} {op : HostOp} {i : Instr}

/-! ### The codes of the checks -/

theorem notLoaded_allowed (h : needsReady i = true) : codeOf .notLoaded ∈ allowedCodes i := by
  cases i with
  | encimg | getenc => simp [codeOf, allowedCodes]
  | _ => cases h

theorem noTable_allowed (h : needsTable i = true) : codeOf .noTable ∈ allowedCodes i := by
  cases i with
  | decblk | encblk => simp [codeOf, allowedCodes]
  | _ => cases h

/-- Every command but NOP has a footprint to be admitted (20_memory.md R59). -/
theorem busError_allowed (h : admits s.params (footprint i s) = false) : codeOf .busError ∈ allowedCodes i := by
  cases i with
  | nop => cases h
  | _ => simp [codeOf, allowedCodes]

/-- Only a command that writes memory can overlap (20_memory.md R62). -/
theorem overlap_allowed (h : overlaps i s = true) : codeOf .overlap ∈ allowedCodes i := by
  cases i with
  | nop | ldtab | crc32v | keychk => simp [overlaps, meetsAny, footprint, crossKeyOverlap] at h
  | _ => simp [codeOf, allowedCodes]

/-- A check fails only with a code of the command's row. -/
theorem firstFailure_allowed {e : ErrCode} (h : firstFailure i s = some e) : codeOf e ∈ allowedCodes i := by
  rw [firstFailure] at h
  split at h
  next hready =>
    cases h
    exact notLoaded_allowed (Bool.and_eq_true_iff.mp hready).1
  split at h
  next htable =>
    cases h
    exact noTable_allowed (Bool.and_eq_true_iff.mp htable).1
  split at h
  next hadmits =>
    cases h
    exact busError_allowed (by simpa using hadmits)
  split at h
  next hoverlaps =>
    cases h
    exact overlap_allowed hoverlaps
  next => cases h

/-! ### The codes of the effects -/

theorem ok_allowed (i : Instr) : codeOf .ok ∈ allowedCodes i := by
  cases i <;> exact List.mem_cons_self

/-- How an effect ends: with `complete`, whose code is OK, or CHECKSUM for CRC32V alone; or in SERENC's loop. -/
theorem effectOf_ends (i : Instr) (s : State) : (∃ u, effectOf i s = complete .ok u) ∨
    (i = .crc32v ∧ ∃ u, effectOf i s = complete .checksum u) ∨ ∃ w u, effectOf i s = enterLoop w u := by
  cases i with
  | getenc v k =>
    rw [effectOf, getencEffect]
    split
    · exact .inl ⟨_, rfl⟩
    · exact .inl ⟨_, rfl⟩
  | crc32v =>
    rw [effectOf, crc32vEffect]
    split
    · exact .inl ⟨_, rfl⟩
    · exact .inr (.inl ⟨rfl, _, rfl⟩)
  | serenc =>
    rw [effectOf, serencEffect]
    split
    · exact .inl ⟨_, rfl⟩
    · exact .inr (.inr ⟨_, _, rfl⟩)
  | _ => exact .inl ⟨_, rfl⟩

/-- An effect completes only with a code of the command's row. -/
theorem effectOf_allowed (h : (effectOf i s).phase = .idle) : (effectOf i s).errcode ∈ allowedCodes i := by
  obtain ⟨u, hu⟩ | ⟨rfl, u, hu⟩ | ⟨w, u, hu⟩ := effectOf_ends i s
  · rw [hu]
    exact ok_allowed i
  · rw [hu]
    exact (by decide : codeOf .checksum ∈ allowedCodes .crc32v)
  · rw [hu] at h
    cases h

/-- Settles O10: a completing step is a failed check, a command's effect, or one of the two ends of SERENC's loop; a stuck engine stays busy. -/
theorem errorCodesAreTheMatrix : Obligations.ErrorCodesAreTheMatrix := by
  refine ⟨fun i s t hp h hidle => ?first, fun w s t hp h hidle => ?attempt⟩
  case first =>
    obtain ⟨e, hf, rfl⟩ | ⟨-, -, rfl⟩ | ⟨-, -, rfl⟩ := exec_next h
    · exact firstFailure_allowed hf
    · exact effectOf_allowed hidle
    · simp [hp] at hidle
  case attempt =>
    obtain ⟨-, -, rfl⟩ | ⟨-, -, rfl⟩ | ⟨-, -, rfl⟩ | ⟨-, -, rfl⟩ := attemptSerenc_next h
    · exact .inl rfl
    · simp [hp] at hidle
    · exact .inr rfl
    · cases hidle

/-! ### The interrupt output -/

theorem irq_iff (s : State) : irq s = true ↔ s.done = true ∧ s.ie = true := Bool.and_eq_true_iff

/-- IE is what the host last wrote to CFG (10_state.md R35). -/
theorem HostStep.ie (h : HostStep u op t) : t.ie = u.ie ∨ ∃ w, op = .regWrite 0x008 32 w ∧ t.ie = w.getLsbD 1 := by
  cases h with
  | configures w idle => exact .inr ⟨w, rfl, rfl⟩
  | _ => exact .inl rfl

theorem ie_writers (h : step s = .next t) (hnr : ¬ Resets s) :
    t.ie = s.ie ∨ ∃ w, HostWrites 0x008 w s ∧ t.ie = w.getLsbD 1 := by
  obtain ⟨op, ha, hs⟩ | ⟨-, hs⟩ := step_cases_of_not_resets h hnr
  · exact hs.ie.imp_right fun ⟨w, hop, hie⟩ => ⟨w, ha _ w hop, hie⟩
  · exact .inl hs.sameInputs.ie

/-- A reset turn leaves `irq` at 0 (70_reset_and_hazards.md R159). -/
theorem not_resets_of_irq (h : step s = .next t) (hirq : irq t = true) : ¬ Resets s := by
  rintro ⟨rest, hr⟩
  obtain rfl := Host.Outcome.next.inj ((step_reset hr).symm.trans h)
  cases hirq

/-- Settles O57: where `irq` rises, DONE has risen, by a completion, or IE has, by a write to CFG. -/
theorem interruptFollowsDoneAndEnable : Obligations.InterruptFollowsDoneAndEnable := by
  refine ⟨fun s => ?words, fun s t h hlow hhigh => ?rises⟩
  case words => rw [getLsbD_statusWord, getLsbD_cfgWord]; rfl
  case rises =>
    have hnr := not_resets_of_irq h hhigh
    obtain ⟨hdone, hie⟩ := (irq_iff t).mp hhigh
    obtain hd | ⟨-, hcompletes⟩ | ⟨hd, -⟩ := done_writers h hnr
    · obtain he | ⟨w, hw, he⟩ := ie_writers h hnr
      · have hraised : irq s = true := (irq_iff s).mpr ⟨hd ▸ hdone, he ▸ hie⟩
        simp [hraised] at hlow
      · exact .inr ⟨w, hw, he ▸ hie⟩
    · exact .inl hcompletes
    · simp [hd] at hdone

/-! ### The state right after reset -/

/-- Settles O50: memory and the marks are empty, the engine is idle, and no flag is set (70_reset_and_hazards.md R159). -/
theorem resetMeetsTheInvariant : Obligations.ResetMeetsTheInvariant where
  memory := wf_reset
  code := (by decide : (0#4).toNat ≤ 7)
  hazards := .nil
  busy_not_done _ := rfl
  recok_zero h := by cases h
  loop_command _ h := by cases h
  loop_budget _ h := by cases h

end Sys2Proof.Machine
end

section
/-! Proofs of the statements on reset (70_reset_and_hazards.md R157 to R160): the value that each register reads after it, and the bytes of
memory that it leaves alone. -/

namespace Sys2Proof.Machine

variable {s u : State} {a off : Nat}

/-! ### The reset values -/

theorem slotAt_eq_crc32Seed_iff : slotAt off = .crc32Seed ↔ off = 0x02C :=
  ⟨fun h => by simpa [registerMap] using mem_registerMap_of_slotAt h (by simp) (by simp), fun h => h ▸ rfl⟩

/-- Only CRC32_SEED has a reset value other than 0; the TAB window reads 0 while TVALID = 0. -/
theorem regWord_reset (r : RegSlot) : regWord r State.reset = if r = .crc32Seed then 0xFFFFFFFF#32 else 0x00000000#32 := by
  cases r <;> rfl

/-- What a reset turn leaves to chance in `T` and `PEND` no register shows. -/
theorem regWord_resetTurn (r : RegSlot) (u : State) : regWord r (resetTurn u) = regWord r State.reset := by
  cases r <;> rfl

theorem regWord_slotAt_reset (off : Nat) :
    regWord (slotAt off) State.reset = if off = 0x02C then 0xFFFFFFFF#32 else 0x00000000#32 := by
  rw [regWord_reset]
  exact if_congr slotAt_eq_crc32Seed_iff rfl rfl

/-- Settles O48: the reset turn reads, register by register, as the state right after reset. -/
theorem resetGivesTheResetValues : Obligations.ResetGivesTheResetValues := by
  refine ⟨⟨rfl, rfl, fun off _ _ => regWord_slotAt_reset off⟩, fun s rest h => ?turn⟩
  case turn =>
    have hread (off : Nat) := (regWord_resetTurn (slotAt off) (popTurn s)).trans (regWord_slotAt_reset off)
    exact ⟨_, step_reset h, ⟨rfl, rfl, fun off _ _ => hread off⟩, rfl, congrArg List.tail h⟩

/-! ### The memory that reset leaves alone -/

/-- What a reset turn abandons is the write footprint of the pending command, and nothing when idle (R158). -/
theorem inRegion_abandoned_iff (s : State) (a : Nat) :
    (∃ r ∈ abandoned s, inRegion r a = true) ↔ s.phase ≠ .idle ∧ PendingWrites s a := by
  rw [← busy_iff, ← pendingWrites_iff, abandoned]
  cases busy s <;> simp

theorem pendingWrites_popTurn : PendingWrites (popTurn s) a ↔ PendingWrites s a := by
  simp only [PendingWrites, Writes, popTurn_pend, footprint_popTurn]

theorem read_resetTurn (h : ¬ (u.phase ≠ .idle ∧ PendingWrites u a)) : Memory.read (resetTurn u).mem a = Memory.read u.mem a :=
  read_scramble fun r hr => Bool.eq_false_iff.mpr fun hin => h ((inRegion_abandoned_iff u a).mp ⟨r, hr, hin⟩)

/-- Settles O49: a reset turn gives free values to the bytes of what it abandons alone, and takes over the count of draws. -/
theorem resetLeavesOtherMemory : Obligations.ResetLeavesOtherMemory := by
  rintro s t ⟨rest, hr⟩ h
  obtain rfl := Host.Outcome.next.inj ((step_reset hr).symm.trans h)
  exact ⟨fun a ha => read_resetTurn fun ⟨hp, hw⟩ => ha ⟨hp, pendingWrites_popTurn.mp hw⟩, rfl⟩

end Sys2Proof.Machine
end
